-- ==== Sys2Proof/Word.lean ====
section
/-! DEFINITION. The word types of the LensCtrl control block (00_scope.md R7, R9; 10_state.md R22; 30_encoding.md R90). -/

namespace Sys2Proof

/-- A shared-state register word, `P_WORD` = 32 bits (R7, R22; log 10). -/
abbrev Word := BitVec 32

/-- A raw sample word, `P_SAMPLE_WORD` = 16 bits (R7, R22; log 10). -/
abbrev SampleWord := BitVec 16

/-- An event word: `OP` in bits 39:32, `OPD` in bits 31:0 (R90). -/
abbrev EventWord := BitVec 40

/-- The operation selector of an event word (R90). -/
abbrev OpCode := BitVec 8

end Sys2Proof
end

