-- ==== Sys2Proof/Codes.lean ====
section
/-! DEFINITION. The named alternatives the spec codes in bits or words: phases (30_encoding.md R99), directions (R100),
agents (00_scope.md R13), operation classes (R91), interrupt lines (60_exceptions.md R270), and the message sent (R98). -/

namespace Sys2Proof

/-- The three rotary positions (R14, R99). -/
inductive Phase where
  | phase0 | phase1 | phase2
  deriving DecidableEq, Repr, Inhabited

/-- An actuator command (R100). -/
inductive Dir where
  /-- "idle", for the focus axis "stop". -/
  | idle
  /-- "forward", for the focus axis "move forward (increase)". -/
  | fwd
  /-- "reverse", for the focus axis "move back (decrease)". -/
  | rev
  deriving DecidableEq, Repr, Inhabited

/-- The agents that take steps (R13). -/
inductive Agent where
  | host | samplingTimer | conversionEngine | settleTimer | samplerHandler | settleHandler | busHandler | mainLoop
  deriving DecidableEq, Repr

/-- The classes of operation selectors (R91). -/
inductive OpClass where
  | hostOperation | hardwareStep | handlerStep | mainLoopStep
  deriving DecidableEq, Repr

/-- The three interrupt lines (R270). -/
inductive IrqLine where
  /-- CPEND, sampler transfer-complete. -/
  | sampler
  /-- STELAPSED, settle timer elapsed. -/
  | sequencer
  /-- MFULL, bus receive. -/
  | bus
  deriving DecidableEq, Repr

/-- The identities of the messages at the block's port (R98, 42_bus_port.md R170). -/
inductive MessageId where
  | statusRequest | command | status
  deriving DecidableEq, Repr

/-- A message the block sends: its identifier and its two data words. Its length is the bus peripheral's (R98). -/
structure OutboundMessage where
  identifier : MessageId
  dataLow : Word
  dataHigh : Word
  deriving DecidableEq, Repr

end Sys2Proof
end

