-- ==== Sys2Proof/Config.lean ====
section
/-! DEFINITION. The implementation parameters (00_scope.md R7), their legality (R8), and the free values the spec
leaves open (93_implementation_defined.md items 1 and 21). -/

namespace Sys2Proof

/-- The parameters of R7, each an argument of the configuration; `P_MASK` is derived from `P_SAMPLE_BITS`. -/
structure Params where
  /-- `P_WORD`, width of a shared-state register word; R7 fixes 32. -/
  word : Nat
  /-- `P_SAMPLE_WORD`, width of one raw sample word; R7 fixes 16. -/
  sampleWord : Nat
  /-- `P_SAMPLE_BITS`, significant bits of a sample. -/
  sampleBits : Nat
  /-- `P_NCH`, channels per sampling period; R7 fixes 3. -/
  nch : Nat
  /-- `P_SCALE`, the scale factor (OPEN). -/
  scale : Nat
  /-- `P_FOCUS_MAX`. -/
  focusMax : Nat
  /-- `P_SAMPLE_PERIOD`, sampling-timer ticks per trigger edge (OPEN). -/
  samplePeriod : Nat
  /-- `P_SETTLE_TICKS`, settle-timer ticks per one-shot period (OPEN). -/
  settleTicks : Nat
  /-- `P_NLANES`, transmit lanes (OPEN); no rule uses it (R7). -/
  nLanes : Nat
  /-- `P_BASE`, placement in an address map (OPEN); no rule uses it (R7, R86). -/
  base : Nat
  deriving DecidableEq, Repr, Inhabited

/-- `P_MASK = 2^P_SAMPLE_BITS - 1` (R7). -/
def Params.mask (p : Params) : Nat := 2 ^ p.sampleBits - 1

/-- The two widths and the channel count are those the registers (R22), the event words (R93) and the rules of the sampler
(R146, R147) are written for. DEDUCED, safe: the spec has no rules for other values (log 10). -/
def Params.widthsFixed (p : Params) : Bool := decide (p.word = 32 ∧ p.sampleWord = 16 ∧ p.nch = 3)

/-- The five conditions of R8, as written there. -/
def Params.conditionsHold (p : Params) : Bool :=
  decide (1 ≤ p.scale ∧ 1 ≤ p.samplePeriod ∧ 1 ≤ p.settleTicks ∧ p.sampleBits ≤ p.sampleWord ∧
    p.mask / p.scale ≤ p.focusMax)

/-- A configuration that has a meaning: the conditions of R8 hold, and the widths are those R7 fixes (log 1, log 10). -/
def Params.legal (p : Params) : Bool := p.widthsFixed && p.conditionsHold

/-- The configuration of `State.reset`: the values R7 fixes or gives as default and, for the parameters R7
leaves OPEN without a default, those of 95_test_vectors.md's configuration (2, 3). DESIGN CHOICE, unsafe for a claim about
`State.reset` alone: log 2. -/
def Config.default : Params :=
  { word := 32, sampleWord := 16, sampleBits := 12, nch := 3, scale := 16, focusMax := 255, samplePeriod := 2, settleTicks := 3,
    nLanes := 1, base := 0 }

/-- FREE VALUE: draw number `n` of a sample or staging word at reset, "any 16-bit value" (R27, R28, R40, R300). Safe: log 3. -/
opaque Config.resetSample : Nat → SampleWord

/-- FREE VALUE: the direction pair of an undefined row `DIR(p, p)` (R200), within the codes that are ever driven (R100).
It is read in no state reachable from reset. Safe: log 7. -/
opaque Config.undefinedPair : Nat → Dir × Dir

end Sys2Proof
end

