-- ==== Sys2Proof/Syntax.lean ====
section
/-! DEFINITION. The 19 operations of 30_encoding.md R92, one constructor per row of spec/opcode_table.json, with the
operand fields of R93 and R102. -/

namespace Sys2Proof

/-- An operation of the LCB: a host port transaction or a step of one of the block's agents (R90, R92). -/
inductive Instr where
  /-- `RESET` (0x01), power-on reset: R300. -/
  | reset
  /-- `SAMPLER_INIT` (0x02): R142. -/
  | samplerInit
  /-- `SEQ_START` (0x03): R205. -/
  | seqStart
  /-- `MAIN_START` (0x04): R242. -/
  | mainStart
  /-- `BUS_CMD d` (0x08), a Command message with data_low `d` arrives: R171. -/
  | busCmd (d : Word)
  /-- `BUS_STATREQ` (0x09), a Status-request message arrives: R172. -/
  | busStatreq
  /-- `TX_DONE a e` (0x0A), arbitration lost `a`, transmission error `e`: R180. -/
  | txDone (arb err : Bool)
  /-- `AGG_QUERY b` (0x0C), bus-error condition `b`: R185. -/
  | aggQuery (busErr : Bool)
  /-- `SMP_STATUS` (0x0D): R160. -/
  | smpStatus
  /-- `SEQ_STATUS` (0x0E): R225. -/
  | seqStatus
  /-- `READ_TARGETS` (0x0F): R123. -/
  | readTargets
  /-- `READ_SAMPLE c` (0x10), channel `c`; 3 is refused: R124. -/
  | readSample (ch : BitVec 2)
  /-- `TRG_TICK` (0x20): R143. -/
  | trgTick
  /-- `CONV v e o` (0x21), converted word, transfer error, overrun: R146. -/
  | conv (v : SampleWord) (err ovr : Bool)
  /-- `SETTLE_TICK` (0x22): R210. -/
  | settleTick
  /-- `ISR_SMP` (0x30): R150. -/
  | isrSmp
  /-- `ISR_SEQ` (0x31): R215. -/
  | isrSeq
  /-- `ISR_BUS` (0x32): R174. -/
  | isrBus
  /-- `MAIN_STEP` (0x38): R243. -/
  | mainStep
  deriving DecidableEq, Repr

/-- Why an event word names no operation (R94, R95). -/
inductive DecodeError where
  /-- `OP` is not in the operation map (R94 step 1). -/
  | undefinedOp
  /-- A reserved operand bit is 1 (R94 step 2). -/
  | reservedOperandBit
  /-- `READ_SAMPLE` with channel 3 (R94 step 3). -/
  | reservedChannel
  deriving DecidableEq, Repr

end Sys2Proof
end

