-- ==== Sys2Proof/Machine/State.lean ====
section
/-! DEFINITION. The state of the LCB (10_state.md R22 to R40), the reasons a step can stop, and the state after reset. -/

namespace Sys2Proof.Machine

/-- The LCB "raises no synchronous exception and has no trap: no operation faults" (60_exceptions.md R277): there is no
fault to raise. -/
inductive Fault where
  deriving DecidableEq, Repr

/-- Why an event word is not a step of the machine. -/
inductive Refusal where
  /-- Raised by an arm of `exec` that has no meaning yet. Safe: nothing can be proved of the operation. -/
  | notModelled (mnemonic : String)
  /-- Raised by every operation whose guard is false: "the step relation has no transition for it in this state"
  (00_scope.md R10, 30_encoding.md R94). Safe: log 5. -/
  | notEnabled (event : Instr)
  /-- Raised by `step` on a word that names no operation (R94, R95, R278). Safe. -/
  | illegalEventWord (reason : DecodeError)
  /-- Raised by `READ_SAMPLE` of channel 3, which decoding already refuses (R94, R124). Safe: log 9. -/
  | reservedChannel
  /-- Raised by `MAIN_STEP` when MPC is 11..15, which "a model refuses" (R243). Safe. -/
  | reservedMicroStep (mpc : BitVec 4)
  /-- Raised by every operation when the configuration is not legal, "it has no meaning" (R8), or has other widths than R7
  fixes. Safe: log 1, log 10. -/
  | illegalConfiguration
  /-- Raised by `step` when no event word is left: nothing happens to the machine (log 4). Safe. -/
  | noEvent
  deriving DecidableEq, Repr

/-- The value a step returns to the host, `respond(v)` (R10), in the formats of R101. -/
inductive Response where
  /-- "Every other operation responds with nothing." -/
  | nothing
  /-- A 1-bit status code: 0 OK, 1 NOT_OK. -/
  | status (code : BitVec 1)
  /-- A 32-bit word. -/
  | word (w : Word)
  deriving DecidableEq, Repr

/-- The registers of R22, which gives each a number as an identifier. -/
inductive Reg where
  | ft | rt | stat | smp0 | smp1 | smp2 | buf0 | buf1 | buf2 | smpctl | trgcnt | seqctl | stcnt | out | mainctl | pv | ftl
  | busctl | mdata | txw
  deriving DecidableEq, Repr

/-- The state: the 20 registers of R22, then four fields of the model's own. -/
structure State where
  /-- FT (0x00), focus_target: R23. -/
  ft : Word
  /-- RT (0x01), rotary_target: R24. -/
  rt : Word
  /-- STAT (0x02), StatusFlags: R25, R26. -/
  stat : Word
  /-- SMP0 (0x03), visible position_raw: R27. -/
  smp0 : SampleWord
  /-- SMP1 (0x04), visible temperature_raw: R27. -/
  smp1 : SampleWord
  /-- SMP2 (0x05), visible reference_raw: R27. -/
  smp2 : SampleWord
  /-- BUF0 (0x06), staging slot 0: R28. -/
  buf0 : SampleWord
  /-- BUF1 (0x07), staging slot 1: R28. -/
  buf1 : SampleWord
  /-- BUF2 (0x08), staging slot 2: R28. -/
  buf2 : SampleWord
  /-- SMPCTL (0x09), sampler control and completion event: R29. -/
  smpctl : Word
  /-- TRGCNT (0x0A), sampling-timer counter: R30. -/
  trgcnt : Word
  /-- SEQCTL (0x0B), RotaryState and settle-timer control: R31. -/
  seqctl : Word
  /-- STCNT (0x0C), settle-timer counter: R32. -/
  stcnt : Word
  /-- OUT (0x0D), actuator direction commands: R33. -/
  out : Word
  /-- MAINCTL (0x0E), main-loop agent control: R34, R36. -/
  mainctl : Word
  /-- PV (0x0F), latched scaled position value: R35. -/
  pv : Word
  /-- FTL (0x10), latched focus target: R35. -/
  ftl : Word
  /-- BUSCTL (0x11), receive mailbox and transmit wait: R37. -/
  busctl : Word
  /-- MDATA (0x12), mailbox data_low: R37. -/
  mdata : Word
  /-- TXW (0x13), last emitted status word: R37. -/
  txw : Word
  /-- The model's: the configuration (R7). No step changes it (log 1). -/
  cfg : Params
  /-- The model's: what the last step returned to the host (R10, R101; log 6). -/
  resp : Response
  /-- The model's: the event words still to come (R90; log 4). -/
  events : List EventWord
  /-- The model's: how many free values have been taken (log 3). -/
  draws : Nat
  deriving DecidableEq, Repr

/-- The state RESET installs (R40, R300), for a configuration and a count of the free values taken before it: the six
sample and staging words take the next six draws. -/
def State.powerOn (cfg : Params) (draws : Nat) : State where
  ft := 0
  rt := 0
  stat := 0x120
  smp0 := Config.resetSample draws
  smp1 := Config.resetSample (draws + 1)
  smp2 := Config.resetSample (draws + 2)
  buf0 := Config.resetSample (draws + 3)
  buf1 := Config.resetSample (draws + 4)
  buf2 := Config.resetSample (draws + 5)
  smpctl := 0
  trgcnt := 0
  seqctl := 0
  stcnt := 0
  out := 0
  mainctl := 0
  pv := 0
  ftl := 0
  busctl := 0
  mdata := 0
  txw := 0
  cfg := cfg
  resp := .nothing
  events := []
  draws := draws + 6

/-- The machine right after power-on reset (R300), in the model's named configuration (log 2), with no event placed (log 4). -/
def State.reset : State := State.powerOn Config.default 0

end Sys2Proof.Machine
end

