-- ==== Sys2Proof/Machine/Fields.lean ====
section
/-! DEFINITION. The named fields of the control registers, at the bits 10_state.md gives them (R25, R29, R31, R33, R34,
R37), and the registers by their numbers (R22). A field is written with "the other fields of the same register unchanged"
(20_memory.md R74). -/

namespace Sys2Proof.Machine

/-- `w[lo+len-1:lo]` (R9). -/
def getField (lo len : Nat) (w : Word) : BitVec len := w.extractLsb' lo len

/-- `w` with the field that starts at bit `lo` replaced by `v`, every other bit kept (R74). -/
def setField {len : Nat} (lo : Nat) (v : BitVec len) (w : Word) : Word :=
  (w &&& ~~~((BitVec.allOnes len).setWidth 32 <<< lo)) ||| (v.setWidth 32 <<< lo)

/-- `w[i]` (R9). -/
def getBit (i : Nat) (w : Word) : Bool := w.getLsbD i

/-- `w` with bit `i` replaced by `b`, every other bit kept (R74). -/
def setBit (i : Nat) (b : Bool) (w : Word) : Word := setField i (BitVec.ofBool b) w

/-! SMPCTL (R29). -/

/-- SST, the sampler state: 0 Idle, 1 Armed, 2 Sampling (R29, R141). -/
def Smpctl.sst (w : Word) : BitVec 2 := getField 0 2 w
/-- WIX, the circular write index (R29). -/
def Smpctl.wix (w : Word) : BitVec 2 := getField 2 2 w
/-- BUSY, a conversion sequence is in progress (R29). -/
def Smpctl.busy (w : Word) : Bool := getBit 4 w
/-- FIRST, the first-completion marker (R29, R153). -/
def Smpctl.first (w : Word) : Bool := getBit 5 w
/-- AERR, transfer error during the sequence in progress (R29). -/
def Smpctl.aerr (w : Word) : Bool := getBit 6 w
/-- AOVR, overrun during the sequence in progress (R29). -/
def Smpctl.aovr (w : Word) : Bool := getBit 7 w
/-- CPEND, the sampler's interrupt line (R29, R270). -/
def Smpctl.cpend (w : Word) : Bool := getBit 8 w
/-- CERR, the pending completion carries a transfer error (R29). -/
def Smpctl.cerr (w : Word) : Bool := getBit 9 w
/-- COVR, the pending completion carries an overrun (R29). -/
def Smpctl.covr (w : Word) : Bool := getBit 10 w

/-- `SST <- v`. -/
def Smpctl.setSst (v : BitVec 2) (w : Word) : Word := setField 0 v w
/-- `WIX <- v`. -/
def Smpctl.setWix (v : BitVec 2) (w : Word) : Word := setField 2 v w
/-- `BUSY <- b`. -/
def Smpctl.setBusy (b : Bool) (w : Word) : Word := setBit 4 b w
/-- `FIRST <- b`. -/
def Smpctl.setFirst (b : Bool) (w : Word) : Word := setBit 5 b w
/-- `AERR <- b`. -/
def Smpctl.setAerr (b : Bool) (w : Word) : Word := setBit 6 b w
/-- `AOVR <- b`. -/
def Smpctl.setAovr (b : Bool) (w : Word) : Word := setBit 7 b w
/-- `CPEND <- b`. -/
def Smpctl.setCpend (b : Bool) (w : Word) : Word := setBit 8 b w
/-- `CERR <- b`. -/
def Smpctl.setCerr (b : Bool) (w : Word) : Word := setBit 9 b w
/-- `COVR <- b`. -/
def Smpctl.setCovr (b : Bool) (w : Word) : Word := setBit 10 b w

/-! SEQCTL (R31). -/

/-- CP, current_phase (R31). -/
def Seqctl.cp (w : Word) : BitVec 2 := getField 0 2 w
/-- TIP, transition_in_progress (R31). -/
def Seqctl.tip (w : Word) : Bool := getBit 2 w
/-- STARTED, `SEQ_START` has taken effect (R31). -/
def Seqctl.started (w : Word) : Bool := getBit 3 w
/-- STEN, the settle timer is enabled (R31). -/
def Seqctl.sten (w : Word) : Bool := getBit 4 w
/-- STELAPSED, the sequencer's interrupt line (R31, R270). -/
def Seqctl.stelapsed (w : Word) : Bool := getBit 5 w

/-- `CP <- v`. -/
def Seqctl.setCp (v : BitVec 2) (w : Word) : Word := setField 0 v w
/-- `TIP <- b`. -/
def Seqctl.setTip (b : Bool) (w : Word) : Word := setBit 2 b w
/-- `STARTED <- b`. -/
def Seqctl.setStarted (b : Bool) (w : Word) : Word := setBit 3 b w
/-- `STEN <- b`. -/
def Seqctl.setSten (b : Bool) (w : Word) : Word := setBit 4 b w
/-- `STELAPSED <- b`. -/
def Seqctl.setStelapsed (b : Bool) (w : Word) : Word := setBit 5 b w

/-! OUT (R33). -/

/-- FOC, the focus axis command code (R33, R100). -/
def Out.foc (w : Word) : BitVec 2 := getField 0 2 w
/-- AXA, the rotary axis A command code (R33, R100). -/
def Out.axa (w : Word) : BitVec 2 := getField 2 2 w
/-- AXB, the rotary axis B command code (R33, R100). -/
def Out.axb (w : Word) : BitVec 2 := getField 4 2 w

/-- `FOC <- v`. -/
def Out.setFoc (v : BitVec 2) (w : Word) : Word := setField 0 v w
/-- `AXA <- v`. -/
def Out.setAxa (v : BitVec 2) (w : Word) : Word := setField 2 v w
/-- `AXB <- v`. -/
def Out.setAxb (v : BitVec 2) (w : Word) : Word := setField 4 v w

/-! MAINCTL (R34). -/

/-- MRUN, the main loop is running (R34). -/
def Mainctl.mrun (w : Word) : Bool := getBit 0 w
/-- G, the latched status gate of the iteration (R34). -/
def Mainctl.g (w : Word) : Bool := getBit 1 w
/-- MPC, the next micro-step (R34, R36). -/
def Mainctl.mpc (w : Word) : BitVec 4 := getField 4 4 w
/-- TGT, the latched rotary target (R34). -/
def Mainctl.tgt (w : Word) : BitVec 2 := getField 8 2 w

/-- `MRUN <- b`. -/
def Mainctl.setMrun (b : Bool) (w : Word) : Word := setBit 0 b w
/-- `G <- b`. -/
def Mainctl.setG (b : Bool) (w : Word) : Word := setBit 1 b w
/-- `MPC <- v`. -/
def Mainctl.setMpc (v : BitVec 4) (w : Word) : Word := setField 4 v w
/-- `TGT <- v`. -/
def Mainctl.setTgt (v : BitVec 2) (w : Word) : Word := setField 8 v w

/-! BUSCTL (R37). -/

/-- MFULL, the bus interrupt line: the mailbox holds a message (R37, R270). -/
def Busctl.mfull (w : Word) : Bool := getBit 0 w
/-- MKIND, false for a Command, true for a Status-request (R37). -/
def Busctl.mkind (w : Word) : Bool := getBit 1 w
/-- BWAIT, the bus receive handler waits for transmit completion (R37, R39). -/
def Busctl.bwait (w : Word) : Bool := getBit 2 w
/-- TXV, a status word is being transmitted (R37). -/
def Busctl.txv (w : Word) : Bool := getBit 3 w

/-- `MFULL <- b`. -/
def Busctl.setMfull (b : Bool) (w : Word) : Word := setBit 0 b w
/-- `MKIND <- b`. -/
def Busctl.setMkind (b : Bool) (w : Word) : Word := setBit 1 b w
/-- `BWAIT <- b`. -/
def Busctl.setBwait (b : Bool) (w : Word) : Word := setBit 2 b w
/-- `TXV <- b`. -/
def Busctl.setTxv (b : Bool) (w : Word) : Word := setBit 3 b w

/-! The register file by identifier (R22). -/

/-- The register's number (R22). -/
def Reg.number : Reg → Nat
  | .ft => 0x00 | .rt => 0x01 | .stat => 0x02
  | .smp0 => 0x03 | .smp1 => 0x04 | .smp2 => 0x05
  | .buf0 => 0x06 | .buf1 => 0x07 | .buf2 => 0x08
  | .smpctl => 0x09 | .trgcnt => 0x0A | .seqctl => 0x0B | .stcnt => 0x0C | .out => 0x0D
  | .mainctl => 0x0E | .pv => 0x0F | .ftl => 0x10 | .busctl => 0x11 | .mdata => 0x12 | .txw => 0x13

/-- The register's width in bits (R22). -/
def Reg.width : Reg → Nat
  | .smp0 => 16 | .smp1 => 16 | .smp2 => 16 | .buf0 => 16 | .buf1 => 16 | .buf2 => 16
  | .ft => 32 | .rt => 32 | .stat => 32 | .smpctl => 32 | .trgcnt => 32 | .seqctl => 32 | .stcnt => 32 | .out => 32
  | .mainctl => 32 | .pv => 32 | .ftl => 32 | .busctl => 32 | .mdata => 32 | .txw => 32

/-- The contents of a register, zero-extended to a word (R22). This is the model's view for statements; no operation of the
block reads a register by number (R70). -/
def State.reg (s : State) : Reg → Word
  | .ft => s.ft
  | .rt => s.rt
  | .stat => s.stat
  | .smp0 => s.smp0.setWidth 32
  | .smp1 => s.smp1.setWidth 32
  | .smp2 => s.smp2.setWidth 32
  | .buf0 => s.buf0.setWidth 32
  | .buf1 => s.buf1.setWidth 32
  | .buf2 => s.buf2.setWidth 32
  | .smpctl => s.smpctl
  | .trgcnt => s.trgcnt
  | .seqctl => s.seqctl
  | .stcnt => s.stcnt
  | .out => s.out
  | .mainctl => s.mainctl
  | .pv => s.pv
  | .ftl => s.ftl
  | .busctl => s.busctl
  | .mdata => s.mdata
  | .txw => s.txw

end Sys2Proof.Machine
end

