-- ==== Sys2Proof/Machine/Operands.lean ====
section
/-! DEFINITION. Operand forms and value codes: phases (R99), directions (R100), the Command payload (R97), the status word
(R98), the response formats (R101), and the helpers `scale` (R140), `cmp` (R241) and `DIR` (R200). -/

namespace Sys2Proof

/-- The rotary phase code (R99). -/
def Phase.code : Phase → BitVec 2
  | .phase0 => 0
  | .phase1 => 1
  | .phase2 => 2

/-- The phase a 2-bit code names; "3 is not a phase" (R99). -/
def Phase.ofCode (c : BitVec 2) : Option Phase :=
  if c = 0#2 then some .phase0 else if c = 1#2 then some .phase1 else if c = 2#2 then some .phase2 else none

/-- The actuator direction code (R100). -/
def Dir.code : Dir → BitVec 2
  | .idle => 0
  | .fwd => 1
  | .rev => 2

namespace Machine

/-- `valid_phase(r)` (R12). -/
def validPhase (r : Word) : Bool := r == 0#32 || r == 1#32 || r == 2#32

/-- `scale(raw) = (raw & P_MASK) // P_SCALE` (R12, R140), zero-extended to a word. -/
def scale (p : Params) (raw : SampleWord) : Word := BitVec.ofNat 32 ((raw.toNat &&& p.mask) / p.scale)

/-- The comparator `cmp(pv, ft)` (R241), on unsigned integers. -/
def focusCmp (pv ft : Word) : Dir :=
  if ft.toNat < pv.toNat then .rev else if pv.toNat < ft.toNat then .fwd else .idle

/-- The direction table `DIR(from, to)` as (axis A, axis B): the six rows of R200, none where "DIR(p, p) is not defined". -/
def dirTable : Phase → Phase → Option (Dir × Dir)
  | .phase1, .phase2 => some (.rev, .fwd)
  | .phase2, .phase1 => some (.fwd, .rev)
  | .phase1, .phase0 => some (.rev, .idle)
  | .phase2, .phase0 => some (.idle, .rev)
  | .phase0, .phase1 => some (.fwd, .idle)
  | .phase0, .phase2 => some (.idle, .fwd)
  | .phase0, .phase0 => none
  | .phase1, .phase1 => none
  | .phase2, .phase2 => none

/-- The row of the direction table that two phase codes select (R200). -/
def dirOfCodes (src dst : BitVec 2) : Option (Dir × Dir) :=
  match Phase.ofCode src, Phase.ofCode dst with
  | some p, some q => dirTable p q
  | _, _ => none

/-- ROT, the rotary-target selector of a Command, `zext_32(D[7:0])` (R97, R102). -/
def rotField (d : Word) : Word := (d.extractLsb' 0 8).setWidth 32

/-- FOC, the focus-target value of a Command, `zext_32(D[15:8])` (R97, R102). -/
def focField (d : Word) : Word := (d.extractLsb' 8 8).setWidth 32

/-- `{16'b0, hi[7:0], lo[7:0]}`: the layout of the status word (R98) and of the response of `READ_TARGETS` (R101). -/
def packBytes (hi lo : Word) : Word := 0#16 ++ hi.extractLsb' 0 8 ++ lo.extractLsb' 0 8

/-- The status word `{16'b0, scale(SMP0)[7:0], RT[7:0]}` (R98, R177). -/
def statusWord (s : State) : Word := packBytes (scale s.cfg s.smp0) s.rt

/-- The Status message with the status word `w`: "its data_high word is 0" (R98). -/
def statusMessage (w : Word) : OutboundMessage := { identifier := .status, dataLow := w, dataHigh := 0 }

/-- The message on the transmit output, while TXW is valid (R71, R98, R178). -/
def transmitted (s : State) : Option OutboundMessage := if Busctl.txv s.busctl then some (statusMessage s.txw) else none

/-- The status code of a query: 0 OK, 1 NOT_OK (R101). -/
def Response.ofOk (ok : Bool) : Response := .status (if ok then 0#1 else 1#1)

end Machine
end Sys2Proof
end

