-- ==== Sys2Proof/Machine/Flags.lean ====
section
/-! DEFINITION. The status flags of STAT (10_state.md R25, R26) and the status tests that read them (R160, R185, R225). -/

namespace Sys2Proof.Machine

/-- What a read of STAT sees: bits 0, 1, 2, 6 and 7 are hardwired 0 ("every read sees 0", R26) and bits 31:9 are reserved,
read as 0 (R22, R25). The live bits are 3, 4, 5 and 8. DEDUCED: log 14. -/
def Stat.read (w : Word) : Word := w &&& 0x138#32

/-- BUS_OVR, hardwired 0 (R26). -/
def Stat.busOvr (w : Word) : Bool := getBit 0 (Stat.read w)
/-- BUS_ERR, hardwired 0 (R26). -/
def Stat.busErr (w : Word) : Bool := getBit 1 (Stat.read w)
/-- BUS_NST, hardwired 0 (R26). -/
def Stat.busNst (w : Word) : Bool := getBit 2 (Stat.read w)
/-- SMP_OVR, the sampler's sticky Overrun (R25, R155). -/
def Stat.smpOvr (w : Word) : Bool := getBit 3 (Stat.read w)
/-- SMP_ERR, the sampler's Error (R25, R151). -/
def Stat.smpErr (w : Word) : Bool := getBit 4 (Stat.read w)
/-- SMP_NST, the sampler's NotStarted (R25, R152). -/
def Stat.smpNst (w : Word) : Bool := getBit 5 (Stat.read w)
/-- SEQ_OVR, hardwired 0 (R26). -/
def Stat.seqOvr (w : Word) : Bool := getBit 6 (Stat.read w)
/-- SEQ_ERR, hardwired 0 (R26). -/
def Stat.seqErr (w : Word) : Bool := getBit 7 (Stat.read w)
/-- SEQ_NST, the sequencer's NotStarted (R25, R215). -/
def Stat.seqNst (w : Word) : Bool := getBit 8 (Stat.read w)

/-- `SMP_OVR <- b`. -/
def Stat.setSmpOvr (b : Bool) (w : Word) : Word := setBit 3 b w
/-- `SMP_ERR <- b`. -/
def Stat.setSmpErr (b : Bool) (w : Word) : Word := setBit 4 b w
/-- `SMP_NST <- b`. -/
def Stat.setSmpNst (b : Bool) (w : Word) : Word := setBit 5 b w
/-- `SEQ_NST <- b`. -/
def Stat.setSeqNst (b : Bool) (w : Word) : Word := setBit 8 b w

/-- The sampler's status is OK: `SMP_NST == 0 and SMP_ERR == 0` (R160, R161). -/
def samplerOk (s : State) : Bool := !Stat.smpNst s.stat && !Stat.smpErr s.stat

/-- The sequencer's status is OK: `SEQ_NST == 0 and SEQ_ERR == 0` (R225, R226). -/
def sequencerOk (s : State) : Bool := !Stat.seqNst s.stat && !Stat.seqErr s.stat

/-- The aggregate status is OK: neither the bus-error condition nor the sticky Overrun (R185). -/
def aggregateOk (busErr : Bool) (s : State) : Bool := !(busErr || Stat.smpOvr s.stat)

end Sys2Proof.Machine
end

