-- ==== Sys2Proof/Machine/Ops.lean ====
section
/-! DEFINITION. The shared operations: one atomic step with its guard and response (R10, R75), taking an interrupt handler
and returning from one (60_exceptions.md R270 to R273, R280, R281). -/

namespace Sys2Proof.Machine

/-- What one step of the machine answers. -/
abbrev Result := Host.Outcome State Fault Refusal

/-- The step is complete: the machine is in `t` and has returned `r` to the host (R10, R101). -/
def complete (t : State) (r : Response) : Result := .next { t with resp := r }

/-- A step of the event `ev` from `s`: none in an illegal configuration (R8, log 10), not enabled when the guard is false (R10),
else `k`. -/
def whenEnabled (ev : Instr) (guard : Bool) (s : State) (k : Result) : Result :=
  if s.cfg.legal then
    if guard then k else .refused (.notEnabled ev)
  else .refused .illegalConfiguration

/-- The interrupt line is pending (R270). -/
def pending (l : IrqLine) (s : State) : Bool :=
  match l with
  | .sampler => Smpctl.cpend s.smpctl
  | .sequencer => Seqctl.stelapsed s.seqctl
  | .bus => Busctl.mfull s.busctl

/-- A handler is active across steps: `BWAIT == 1` (R39). -/
def handlerActive (s : State) : Bool := Busctl.bwait s.busctl

/-- "A handler's step is enabled exactly when its line is pending and no handler is active" (R271). -/
def handlerEnabled (l : IrqLine) (s : State) : Bool := pending l s && !handlerActive s

/-- Entry of a handler: it acknowledges its source in the same step (R272) and saves nothing (R280). CERR and COVR are
captured by the handler from the state before. -/
def takeHandler (l : IrqLine) (s : State) : State :=
  match l with
  | .sampler =>
    { s with smpctl := s.smpctl |> Smpctl.setCpend false |> Smpctl.setCerr false |> Smpctl.setCovr false }
  | .sequencer => { s with seqctl := Seqctl.setStelapsed false s.seqctl }
  | .bus => { s with busctl := s.busctl |> Busctl.setMfull false |> Busctl.setMkind false, mdata := 0 }

/-- `emit TX(w)`: the handler places the status word on the transmit output and stays active, waiting (R178).
What is sent is `transmitted`: this word and, in data_high, 0 (R98). -/
def emitTx (w : Word) (s : State) : State :=
  { s with txw := w, busctl := s.busctl |> Busctl.setTxv true |> Busctl.setBwait true }

/-- Return of the handler that waits for transmit completion (R180, R281). Every other handler returns at the end of its
one step, which restores nothing. -/
def returnFromWait (s : State) : State :=
  { s with busctl := s.busctl |> Busctl.setBwait false |> Busctl.setTxv false }

end Sys2Proof.Machine
end

