-- ==== Sys2Proof/Machine/BusPort.lean ====
section
/-! DEFINITION. The bus port (42_bus_port.md). -/

namespace Sys2Proof.Machine

/-- A message arrives: it fills an empty mailbox and is dropped by a full one (R171, R172, R173). -/
def arrive (kind : Bool) (d : Word) (s : State) : State :=
  if Busctl.mfull s.busctl then s
  else { s with busctl := s.busctl |> Busctl.setMfull true |> Busctl.setMkind kind, mdata := d }

/-- `BUS_CMD d` (R171). -/
def execBusCmd (d : Word) (s : State) : Result := whenEnabled (.busCmd d) true s (complete (arrive false d s) .nothing)

/-- `BUS_STATREQ` (R172). -/
def execBusStatreq (s : State) : Result := whenEnabled .busStatreq true s (complete (arrive true 0 s) .nothing)

/-- `DECODE(d)` (R175, R176): each target is written when its own field is in range, and kept silently otherwise. -/
def decodeCommand (d : Word) (s : State) : State :=
  { s with
    ft := if (focField d).toNat ≤ s.cfg.focusMax then focField d else s.ft
    rt := if validPhase (rotField d) then rotField d else s.rt }

/-- The effect of `ISR_BUS` (R174): take the message, then decode the Command or emit the status word and wait. -/
def busHandler (s : State) : State :=
  let taken := takeHandler .bus s
  if Busctl.mkind s.busctl then emitTx (statusWord s) taken else decodeCommand s.mdata taken

/-- `ISR_BUS` (R174). -/
def execIsrBus (s : State) : Result :=
  whenEnabled .isrBus (handlerEnabled .bus s) s (complete (busHandler s) .nothing)

/-- `TX_DONE a e` (R180): the wait ends; the result of the send is discarded (R181). -/
def execTxDone (arb err : Bool) (s : State) : Result :=
  whenEnabled (.txDone arb err) (handlerActive s) s (complete (returnFromWait s) .nothing)

/-- `AGG_QUERY b` (R185): the destructive status query, its read and its clear one atomic step (R77). -/
def execAggQuery (busErr : Bool) (s : State) : Result :=
  whenEnabled (.aggQuery busErr) true s
    (complete { s with stat := Stat.setSmpOvr false s.stat } (Response.ofOk (aggregateOk busErr s)))

end Sys2Proof.Machine
end

