-- ==== Sys2Proof/Machine/Lifecycle.lean ====
section
/-! DEFINITION. Power-on reset (70_reset_and_hazards.md R300). -/

namespace Sys2Proof.Machine

/-- Every register takes its reset value, the sample and staging words six fresh draws (R40, R300). The configuration and
the events still to come are not registers of the block and stay (log 18). -/
def resetState (s : State) : State := { State.powerOn s.cfg s.draws with events := s.events }

/-- `RESET` (R300). -/
def execReset (s : State) : Result := whenEnabled .reset true s (complete (resetState s) .nothing)

end Sys2Proof.Machine
end

