-- ==== Sys2Proof/Machine/Sampler.lean ====
section
/-! DEFINITION. The Position Sampler (41_sampler.md). -/

namespace Sys2Proof.Machine

/-- SST codes (R29, R141). -/
def sstIdle : BitVec 2 := 0
/-- SST codes (R29, R141). -/
def sstArmed : BitVec 2 := 1
/-- SST codes (R29, R141). -/
def sstSampling : BitVec 2 := 2

/-- The effect of `SAMPLER_INIT` (R142): from Idle only. -/
def samplerInit (s : State) : State :=
  if Smpctl.sst s.smpctl = sstIdle then
    { s with
      smpctl := s.smpctl |> Smpctl.setSst sstArmed |> Smpctl.setWix 0 |> Smpctl.setBusy false
        |> Smpctl.setAerr false |> Smpctl.setAovr false
      trgcnt := 0 }
  else s

/-- `SAMPLER_INIT` (R142). -/
def execSamplerInit (s : State) : Result := whenEnabled .samplerInit true s (complete (samplerInit s) .nothing)

/-- `TRIGGER_EDGE` on SMPCTL (R144): starts a sequence, or is lost and recorded as an overrun of the one in progress. -/
def triggerEdge (w : Word) : Word :=
  (if Smpctl.busy w then Smpctl.setAovr true w else Smpctl.setBusy true w)
    |> (if Smpctl.sst w = sstArmed then Smpctl.setSst sstSampling else id)

/-- The effect of `TRG_TICK` (R143). The comparison is on natural numbers and the count is 32 bits: with a period of at most
2^32 it never wraps, with a longer one it wraps and the edge never comes. DEDUCED, unsafe there: log 11. -/
def trgTick (s : State) : State :=
  if s.trgcnt.toNat + 1 = s.cfg.samplePeriod then
    { s with trgcnt := 0, smpctl := triggerEdge s.smpctl }
  else { s with trgcnt := s.trgcnt + 1 }

/-- `TRG_TICK` (R143): enabled when the sampler is not Idle. -/
def execTrgTick (s : State) : Result :=
  whenEnabled .trgTick (Smpctl.sst s.smpctl != sstIdle) s (complete (trgTick s) .nothing)

/-- `BUF[k] <- v` (R145, R146); there is no slot 3 (log 8). -/
def writeBuf (k : BitVec 2) (v : SampleWord) (s : State) : State :=
  match k.toNat with
  | 0 => { s with buf0 := v }
  | 1 => { s with buf1 := v }
  | 2 => { s with buf2 := v }
  | _ => s

/-- `COMMIT` (R147): all three visible words in one step, the channel-2 word being the one just converted. -/
def commit (v : SampleWord) (s : State) : State := { s with smp0 := s.buf0, smp1 := s.buf1, smp2 := v }

/-- `RAISE_COMPLETION(ae, ao)` on SMPCTL (R148): a completion that finds the line pending merges and counts as an overrun. -/
def raiseCompletion (ae ao : Bool) (w : Word) : Word :=
  w |> Smpctl.setCpend true |> Smpctl.setCerr (Smpctl.cerr w || ae)
    |> Smpctl.setCovr (Smpctl.covr w || ao || Smpctl.cpend w)

/-- The effect of `CONV v e o` (R146). -/
def convert (v : SampleWord) (err ovr : Bool) (s : State) : State :=
  let wix := Smpctl.wix s.smpctl
  let ae := Smpctl.aerr s.smpctl || err
  let ao := Smpctl.aovr s.smpctl || ovr
  let s' := writeBuf wix v s
  if wix.toNat < 2 then
    { s' with smpctl := s.smpctl |> Smpctl.setWix (wix + 1) |> Smpctl.setAerr ae |> Smpctl.setAovr ao }
  else
    { (if ae then s' else commit v s') with
      smpctl := s.smpctl |> Smpctl.setWix 0 |> Smpctl.setBusy false |> raiseCompletion ae ao
        |> Smpctl.setAerr false |> Smpctl.setAovr false }

/-- `CONV v e o` (R146): enabled while a sequence is in progress. -/
def execConv (v : SampleWord) (err ovr : Bool) (s : State) : Result :=
  whenEnabled (.conv v err ovr) (Smpctl.busy s.smpctl) s (complete (convert v err ovr s) .nothing)

/-- Steps 2 and 3 of the completion handler (R152): Error is cleared; the first successful completion seeds the focus
target from the visible sample, clears NotStarted and sets the marker. -/
def handleSuccess (s : State) : State :=
  if Smpctl.first s.smpctl then { s with stat := Stat.setSmpErr false s.stat }
  else
    { s with
      stat := s.stat |> Stat.setSmpErr false |> Stat.setSmpNst false
      ft := scale s.cfg s.smp0
      smpctl := Smpctl.setFirst true s.smpctl }

/-- Step 1 of the completion handler (R151): Error is set and nothing else. -/
def handleError (s : State) : State := { s with stat := Stat.setSmpErr true s.stat }

/-- Step 4 of the completion handler (R155): an overrun sets the sticky flag. -/
def handleOverrun (o : Bool) (s : State) : State :=
  if o then { s with stat := Stat.setSmpOvr true s.stat } else s

/-- The effect of `ISR_SMP` (R150): take the event, then steps 1 to 4 on the indications it carried. -/
def samplerHandler (s : State) : State :=
  let taken := takeHandler .sampler s
  handleOverrun (Smpctl.covr s.smpctl)
    (if Smpctl.cerr s.smpctl then handleError taken else handleSuccess taken)

/-- `ISR_SMP` (R150). -/
def execIsrSmp (s : State) : Result :=
  whenEnabled .isrSmp (handlerEnabled .sampler s) s (complete (samplerHandler s) .nothing)

/-- `SMP_STATUS` (R160): pure. -/
def execSmpStatus (s : State) : Result :=
  whenEnabled .smpStatus true s (complete s (Response.ofOk (samplerOk s)))

end Sys2Proof.Machine
end

