-- ==== Sys2Proof/Machine/Sequencer.lean ====
section
/-! DEFINITION. The Rotary Phase Sequencer (43_sequencer.md) and the setPhase micro-steps SP1 to SP5 of the main loop. -/

namespace Sys2Proof.Machine

/-- `(AXA, AXB) <- (a, b)` (R33). -/
def driveAxes (p : Dir × Dir) (w : Word) : Word := w |> Out.setAxa p.1.code |> Out.setAxb p.2.code

/-- The effect of `SEQ_START` (R205): once; the home seek drives both axes in reverse for one settle window. -/
def seqStart (s : State) : State :=
  if Seqctl.started s.seqctl then s
  else
    { s with
      seqctl := s.seqctl |> Seqctl.setStarted true |> Seqctl.setCp 0 |> Seqctl.setSten true |> Seqctl.setTip true
      out := driveAxes (.rev, .rev) s.out
      stcnt := 0 }

/-- `SEQ_START` (R205). -/
def execSeqStart (s : State) : Result := whenEnabled .seqStart true s (complete (seqStart s) .nothing)

/-- The effect of `SETTLE_TICK` (R210): the comparison uses the count before the step. The comparison is on natural
numbers and the count is 32 bits: with a period of exactly 2^32 the timer elapses but STCNT is left 0, not the period; with a
longer one it wraps and never elapses. DEDUCED, unsafe there: log 11. -/
def settleTick (s : State) : State :=
  { s with
    stcnt := s.stcnt + 1
    seqctl :=
      if s.stcnt.toNat + 1 = s.cfg.settleTicks then s.seqctl |> Seqctl.setSten false |> Seqctl.setStelapsed true
      else s.seqctl }

/-- `SETTLE_TICK` (R210): enabled while the settle timer is. -/
def execSettleTick (s : State) : Result :=
  whenEnabled .settleTick (Seqctl.sten s.seqctl) s (complete (settleTick s) .nothing)

/-- The effect of `ISR_SEQ` (R215): idle both axes, take the event, clear NotStarted and transition_in_progress. -/
def settleHandler (s : State) : State :=
  let taken := takeHandler .sequencer s
  { taken with
    out := driveAxes (.idle, .idle) s.out
    stat := Stat.setSeqNst false s.stat
    seqctl := Seqctl.setTip false taken.seqctl }

/-- `ISR_SEQ` (R215). -/
def execIsrSeq (s : State) : Result :=
  whenEnabled .isrSeq (handlerEnabled .sequencer s) s (complete (settleHandler s) .nothing)

/-- `SEQ_STATUS` (R225): pure. -/
def execSeqStatus (s : State) : Result :=
  whenEnabled .seqStatus true s (complete s (Response.ofOk (sequencerOk s)))

/-- SP1, compare (R231). -/
def microSp1 (s : State) : State :=
  { s with
    mainctl := Mainctl.setMpc (if Mainctl.tgt s.mainctl = Seqctl.cp s.seqctl then 0 else 7) s.mainctl }

/-- SP2, disarm: stops and resets the settle timer and leaves an elapsed event pending (R232). -/
def microSp2 (s : State) : State :=
  { s with seqctl := Seqctl.setSten false s.seqctl, stcnt := 0, mainctl := Mainctl.setMpc 8 s.mainctl }

/-- SP3, drive: `(AXA, AXB) <- DIR(CP, TGT)` (R233). Where the table has no row (R200) the pair is a free value and one
draw is taken (log 7). -/
def microSp3 (s : State) : State :=
  match dirOfCodes (Seqctl.cp s.seqctl) (Mainctl.tgt s.mainctl) with
  | some p => { s with out := driveAxes p s.out, mainctl := Mainctl.setMpc 9 s.mainctl }
  | none =>
    { s with
      out := driveAxes (Config.undefinedPair s.draws) s.out
      mainctl := Mainctl.setMpc 9 s.mainctl
      draws := s.draws + 1 }

/-- SP4, commit the phase (R234). -/
def microSp4 (s : State) : State :=
  { s with
    seqctl := s.seqctl |> Seqctl.setCp (Mainctl.tgt s.mainctl) |> Seqctl.setTip true
    mainctl := Mainctl.setMpc 10 s.mainctl }

/-- SP5, re-arm: the iteration ends (R235). -/
def microSp5 (s : State) : State :=
  { s with seqctl := Seqctl.setSten true s.seqctl, mainctl := Mainctl.setMpc 0 s.mainctl }

end Sys2Proof.Machine
end

