-- ==== Sys2Proof/Machine/Servo.lean ====
section
/-! DEFINITION. The Focus Servo Loop and the main-loop agent (44_servo_main.md). -/

namespace Sys2Proof.Machine

/-- The effect of `MAIN_START` (R242): once. -/
def mainStart (s : State) : State :=
  if Mainctl.mrun s.mainctl then s
  else { s with mainctl := s.mainctl |> Mainctl.setMrun true |> Mainctl.setMpc 0 }

/-- `MAIN_START` (R242). -/
def execMainStart (s : State) : Result := whenEnabled .mainStart true s (complete (mainStart s) .nothing)

/-- M0, read the sample (R244). R244 adds that a PV latched before the first commit is never used for the output; the
pseudocode of R244 to R247 uses it when that commit and `ISR_SMP` come between M0 and M2. DEDUCED, safe: the pseudocode is
followed (log 19). -/
def microM0 (s : State) : State := { s with pv := scale s.cfg s.smp0, mainctl := Mainctl.setMpc 1 s.mainctl }

/-- M1, read the focus target (R245). R254 says that a seed or a Command decoded between M0 and M3 is seen from the next
iteration on; by R245 one that comes before M1 is latched here and used in this iteration. DEDUCED, safe: the pseudocode of
R245 is followed (log 19). -/
def microM1 (s : State) : State := { s with ftl := s.ft, mainctl := Mainctl.setMpc 2 s.mainctl }

/-- M2, read the sampler gate (R246, R161). The gate is read here, after PV and FTL are latched (R254), so the first focus
command need not compare the position with itself, as R303 says it does: `ISR_SMP` may come between M1 and M2, or a
commit or Command between the seed and the latches. DEDUCED, safe: the pseudocode of R244 to R247 is followed (log 19). -/
def microM2 (s : State) : State :=
  { s with mainctl := s.mainctl |> Mainctl.setG (samplerOk s) |> Mainctl.setMpc 3 }

/-- M3, drive the focus axis; a closed gate keeps the output (R247, R252). -/
def microM3 (s : State) : State :=
  { s with
    out := if Mainctl.g s.mainctl then Out.setFoc (focusCmp s.pv s.ftl).code s.out else s.out
    mainctl := Mainctl.setMpc 4 s.mainctl }

/-- M4, read the sequencer gate (R248, R226). -/
def microM4 (s : State) : State :=
  { s with mainctl := s.mainctl |> Mainctl.setG (sequencerOk s) |> Mainctl.setMpc 5 }

/-- M5, read the rotary target, or end the iteration when the gate is closed (R249). -/
def microM5 (s : State) : State :=
  { s with
    mainctl :=
      if Mainctl.g s.mainctl then s.mainctl |> Mainctl.setTgt (s.rt.extractLsb' 0 2) |> Mainctl.setMpc 6
      else Mainctl.setMpc 0 s.mainctl }

/-- The micro-step MPC names (R36, R243); values 11..15 name none. -/
def microStep (s : State) : Option State :=
  match (Mainctl.mpc s.mainctl).toNat with
  | 0 => some (microM0 s)
  | 1 => some (microM1 s)
  | 2 => some (microM2 s)
  | 3 => some (microM3 s)
  | 4 => some (microM4 s)
  | 5 => some (microM5 s)
  | 6 => some (microSp1 s)
  | 7 => some (microSp2 s)
  | 8 => some (microSp3 s)
  | 9 => some (microSp4 s)
  | 10 => some (microSp5 s)
  | _ => none

/-- The guard of `MAIN_STEP`: the loop runs and no handler is active (R243, R274). -/
def mainEnabled (s : State) : Bool := Mainctl.mrun s.mainctl && !handlerActive s

/-- `MAIN_STEP` (R243). -/
def execMainStep (s : State) : Result :=
  whenEnabled .mainStep (mainEnabled s) s
    (match microStep s with
     | some t => complete t .nothing
     | none => .refused (.reservedMicroStep (Mainctl.mpc s.mainctl)))

end Sys2Proof.Machine
end

