-- ==== Sys2Proof/Machine/SharedState.lean ====
section
/-! DEFINITION. The host reads of the Shared Control State and of the visible sample (40_shared_state.md). -/

namespace Sys2Proof.Machine

/-- `READ_TARGETS` (R123): responds `{16'b0, FT[7:0], RT[7:0]}` and writes nothing. -/
def execReadTargets (s : State) : Result :=
  whenEnabled .readTargets true s (complete s (.word (packBytes s.ft s.rt)))

/-- SMPc, the visible sample word of a channel (R124); there is no channel 3. -/
def sampleOf (ch : BitVec 2) (s : State) : Option SampleWord :=
  match ch.toNat with
  | 0 => some s.smp0
  | 1 => some s.smp1
  | 2 => some s.smp2
  | _ => none

/-- `READ_SAMPLE c` (R124): responds `zext_32(SMPc)`, raw, and writes nothing. -/
def execReadSample (ch : BitVec 2) (s : State) : Result :=
  whenEnabled (.readSample ch) true s
    (match sampleOf ch s with
     | some v => complete s (.word (v.setWidth 32))
     | none => .refused .reservedChannel)

end Sys2Proof.Machine
end

