-- ==== Sys2Proof/Machine/Dispatch.lean ====
section
/-! DEFINITION. The meaning of every operation of 30_encoding.md R92, one arm per constructor. -/

namespace Sys2Proof.Machine

def exec (i : Instr) (s : State) : Host.Outcome State Fault Refusal :=
  match i with
  | .reset => Sys2Proof.Machine.execReset s
  | .samplerInit => Sys2Proof.Machine.execSamplerInit s
  | .seqStart => Sys2Proof.Machine.execSeqStart s
  | .mainStart => Sys2Proof.Machine.execMainStart s
  | .busCmd d => Sys2Proof.Machine.execBusCmd d s
  | .busStatreq => Sys2Proof.Machine.execBusStatreq s
  | .txDone arb err => Sys2Proof.Machine.execTxDone arb err s
  | .aggQuery busErr => Sys2Proof.Machine.execAggQuery busErr s
  | .smpStatus => Sys2Proof.Machine.execSmpStatus s
  | .seqStatus => Sys2Proof.Machine.execSeqStatus s
  | .readTargets => Sys2Proof.Machine.execReadTargets s
  | .readSample ch => Sys2Proof.Machine.execReadSample ch s
  | .trgTick => Sys2Proof.Machine.execTrgTick s
  | .conv v err ovr => Sys2Proof.Machine.execConv v err ovr s
  | .settleTick => Sys2Proof.Machine.execSettleTick s
  | .isrSmp => Sys2Proof.Machine.execIsrSmp s
  | .isrSeq => Sys2Proof.Machine.execIsrSeq s
  | .isrBus => Sys2Proof.Machine.execIsrBus s
  | .mainStep => Sys2Proof.Machine.execMainStep s

end Sys2Proof.Machine
end

