-- ==== Sys2Proof/WellFormed.lean ====
section
/-! DEFINITION. Which terms of `Instr` are operations: the operand checks of 30_encoding.md R94 that the operand types do
not already make. -/

namespace Sys2Proof

/-- The only operand value of the right width that names no operation is channel 3 of `READ_SAMPLE` (R94 step 3, R95). -/
def Instr.wellFormed : Instr → Bool
  | .reset => true
  | .samplerInit => true
  | .seqStart => true
  | .mainStart => true
  | .busCmd _ => true
  | .busStatreq => true
  | .txDone _ _ => true
  | .aggQuery _ => true
  | .smpStatus => true
  | .seqStatus => true
  | .readTargets => true
  | .readSample ch => ch != 3#2
  | .trgTick => true
  | .conv _ _ _ => true
  | .settleTick => true
  | .isrSmp => true
  | .isrSeq => true
  | .isrBus => true
  | .mainStep => true

end Sys2Proof
end

