-- ==== Sys2Proof/Decode.lean ====
section
/-! DEFINITION. Decoding and encoding of event words (30_encoding.md R90 to R95, R102). -/

namespace Sys2Proof

/-- `OP = EW[39:32]` (R90). -/
def opOf (w : EventWord) : OpCode := w.extractLsb' 32 8

/-- `OPD = EW[31:0]` (R90). -/
def opdOf (w : EventWord) : Word := w.extractLsb' 0 32

/-- `{OP, OPD}` (R9, R90). -/
def eventWord (op : OpCode) (opd : Word) : EventWord := op ++ opd

/-- R94 step 2: the operation stands when every operand bit outside `fields` is 0. -/
def withReservedBits (opd fields : Word) (i : Instr) : Except DecodeError Instr :=
  if opd &&& ~~~fields = 0#32 then .ok i else .error .reservedOperandBit

/-- R94 step 3, after step 2: `READ_SAMPLE` refuses channel 3. -/
def decodeReadSample (opd : Word) : Except DecodeError Instr :=
  if opd &&& ~~~0x3#32 = 0#32 then
    if opd.extractLsb' 0 2 = 3#2 then .error .reservedChannel else .ok (.readSample (opd.extractLsb' 0 2))
  else .error .reservedOperandBit

/-- The operation map (R92) with the operand layouts of R93 and the operand fields of R102: the operation that `OP = op`
and `OPD = opd` name. Total: every pair names one operation or is refused by name (R94). -/
def decodeFields (op : Nat) (opd : Word) : Except DecodeError Instr :=
  match op with
  | 0x01 => withReservedBits opd 0#32 .reset
  | 0x02 => withReservedBits opd 0#32 .samplerInit
  | 0x03 => withReservedBits opd 0#32 .seqStart
  | 0x04 => withReservedBits opd 0#32 .mainStart
  | 0x08 => .ok (.busCmd opd)
  | 0x09 => withReservedBits opd 0#32 .busStatreq
  | 0x0A => withReservedBits opd 0x3#32 (.txDone (opd.getLsbD 0) (opd.getLsbD 1))
  | 0x0C => withReservedBits opd 0x1#32 (.aggQuery (opd.getLsbD 0))
  | 0x0D => withReservedBits opd 0#32 .smpStatus
  | 0x0E => withReservedBits opd 0#32 .seqStatus
  | 0x0F => withReservedBits opd 0#32 .readTargets
  | 0x10 => decodeReadSample opd
  | 0x20 => withReservedBits opd 0#32 .trgTick
  | 0x21 => withReservedBits opd 0x3FFFF#32 (.conv (opd.extractLsb' 0 16) (opd.getLsbD 16) (opd.getLsbD 17))
  | 0x22 => withReservedBits opd 0#32 .settleTick
  | 0x30 => withReservedBits opd 0#32 .isrSmp
  | 0x31 => withReservedBits opd 0#32 .isrSeq
  | 0x32 => withReservedBits opd 0#32 .isrBus
  | 0x38 => withReservedBits opd 0#32 .mainStep
  | _ => .error .undefinedOp

/-- Decoding an event word (R94). -/
def decode (w : EventWord) : Except DecodeError Instr := decodeFields (opOf w).toNat (opdOf w)

/-- The `OP` value of each operation (R92). -/
def Instr.op : Instr → OpCode
  | .reset => 0x01
  | .samplerInit => 0x02
  | .seqStart => 0x03
  | .mainStart => 0x04
  | .busCmd _ => 0x08
  | .busStatreq => 0x09
  | .txDone _ _ => 0x0A
  | .aggQuery _ => 0x0C
  | .smpStatus => 0x0D
  | .seqStatus => 0x0E
  | .readTargets => 0x0F
  | .readSample _ => 0x10
  | .trgTick => 0x20
  | .conv _ _ _ => 0x21
  | .settleTick => 0x22
  | .isrSmp => 0x30
  | .isrSeq => 0x31
  | .isrBus => 0x32
  | .mainStep => 0x38

/-- One operand bit placed at position `i` of `OPD` (R93). -/
def bitAt (i : Nat) (b : Bool) : Word := (BitVec.ofBool b).setWidth 32 <<< i

/-- The `OPD` field of each operation (R93): the named fields in their places, every other bit 0. -/
def Instr.opd : Instr → Word
  | .busCmd d => d
  | .txDone arb err => bitAt 0 arb ||| bitAt 1 err
  | .aggQuery b => bitAt 0 b
  | .readSample ch => ch.setWidth 32
  | .conv v err ovr => v.setWidth 32 ||| bitAt 16 err ||| bitAt 17 ovr
  | .reset => 0
  | .samplerInit => 0
  | .seqStart => 0
  | .mainStart => 0
  | .busStatreq => 0
  | .smpStatus => 0
  | .seqStatus => 0
  | .readTargets => 0
  | .trgTick => 0
  | .settleTick => 0
  | .isrSmp => 0
  | .isrSeq => 0
  | .isrBus => 0
  | .mainStep => 0

/-- The event word of an operation (R90, R92, R93). -/
def encode (i : Instr) : EventWord := eventWord i.op i.opd

/-- The class an `OP` value lies in (R91); the class of an undefined value is no operation. -/
def opClass (op : OpCode) : Option OpClass :=
  if 0x01 ≤ op.toNat ∧ op.toNat ≤ 0x1F then some .hostOperation
  else if 0x20 ≤ op.toNat ∧ op.toNat ≤ 0x2F then some .hardwareStep
  else if 0x30 ≤ op.toNat ∧ op.toNat ≤ 0x37 then some .handlerStep
  else if 0x38 ≤ op.toNat ∧ op.toNat ≤ 0x3F then some .mainLoopStep
  else none

/-- The agent that takes each step (R13, R92). -/
def Instr.agent : Instr → Agent
  | .reset => .host
  | .samplerInit => .host
  | .seqStart => .host
  | .mainStart => .host
  | .busCmd _ => .host
  | .busStatreq => .host
  | .txDone _ _ => .host
  | .aggQuery _ => .host
  | .smpStatus => .host
  | .seqStatus => .host
  | .readTargets => .host
  | .readSample _ => .host
  | .trgTick => .samplingTimer
  | .conv _ _ _ => .conversionEngine
  | .settleTick => .settleTimer
  | .isrSmp => .samplerHandler
  | .isrSeq => .settleHandler
  | .isrBus => .busHandler
  | .mainStep => .mainLoop

/-- The class of operations an agent's steps belong to (R13, R91). -/
def Agent.opClass : Agent → OpClass
  | .host => .hostOperation
  | .samplingTimer => .hardwareStep
  | .conversionEngine => .hardwareStep
  | .settleTimer => .hardwareStep
  | .samplerHandler => .handlerStep
  | .settleHandler => .handlerStep
  | .busHandler => .handlerStep
  | .mainLoop => .mainLoopStep

/-- The event word whose bits are those of `w` below `nbits`, every bit above them 0. -/
def tableWord (nbits w : Nat) : EventWord := BitVec.ofNat 40 (w % 2 ^ nbits)

/-- The operation the decoder reads from an event word given as a number (bit 0 the least significant, R9). -/
def decodeTableWord (nbits w : Nat) : Option Instr := (decode (tableWord nbits w)).toOption

end Sys2Proof
end

