-- ==== Sys2Proof/Machine/Fetch.lean ====
section
/-! DEFINITION. How the next event word reaches the machine (30_encoding.md R90; log 4). -/

namespace Sys2Proof.Machine

/-- The next event word, and the state with that word taken from the trace. -/
def fetch (s : State) : Option (EventWord × State) :=
  match s.events with
  | [] => none
  | w :: rest => some (w, { s with events := rest })

/-- The trace with one event word placed before all others. -/
def placeEvent (w : EventWord) (s : State) : State := { s with events := w :: s.events }

end Sys2Proof.Machine
end

