-- ==== Sys2Proof/Machine/Step.lean ====
section
/-! DEFINITION. One step of the block: the next event word of the trace, decoded and executed (30_encoding.md R90, R94). -/

namespace Sys2Proof.Machine

/-- One step: the next event word names an operation, which runs; a word that names none is refused and changes no state
(R278); with no word left nothing happens (log 4). -/
def step (s : State) : Host.Outcome State Fault Refusal :=
  match fetch s with
  | none => .refused .noEvent
  | some (w, s') =>
    match decode w with
    | .ok i => exec i s'
    | .error e => .refused (.illegalEventWord e)

/-- The state with the event word whose bits are `w` below `nbits` placed where `step` takes its next one. -/
def State.withFetchWord (s : State) (nbits w : Nat) : State := placeEvent (tableWord nbits w) s

end Sys2Proof.Machine
end

