-- ==== Sys2Proof/Machine/Trace.lean ====
section
/-! DEFINITION. The trace syntax (30_encoding.md R103) and the pseudo-operations (R104). Both only name event words: neither
adds a meaning. DESIGN CHOICE, safe: the details R9, R103 and R104 leave open are settled as log 16 says. -/

namespace Sys2Proof.Machine

/-! Pseudo-operations (R104). -/

/-- A converted word of the shorthand `SAMPLE`, with its flags (R104). -/
structure Sampled where
  v : SampleWord
  err : Bool
  ovr : Bool
  deriving DecidableEq, Repr

/-- The trace shorthands of R104. Each word of `SAMPLE` has its own flags: "the flags may also be given on the earlier
words". -/
inductive Pseudo where
  | boot
  | iter
  | trigger
  | sample (a b c : Sampled)
  | settle
  deriving DecidableEq, Repr

/-- How many `MAIN_STEP`s from `s` bring MPC to 0 again, at most `fuel` of them: `ITER` is "`MAIN_STEP` repeated until MPC
is 0 again" (R104, R250). -/
def iterLength : Nat → State → Nat
  | 0, _ => 0
  | fuel + 1, s =>
    match microStep s with
    | none => 0
    | some t => if Mainctl.mpc t.mainctl = 0#4 then 1 else 1 + iterLength fuel t

/-- The conversion a word of `SAMPLE` stands for (R104). -/
def Sampled.instr (x : Sampled) : Instr := .conv x.v x.err x.ovr

/-- The operations a pseudo-operation stands for in the state where it is written (R104). An iteration has at most 11
micro-steps (R250). -/
def Pseudo.expand (p : Pseudo) (s : State) : List Instr :=
  match p with
  | .boot => [.reset, .samplerInit, .seqStart, .mainStart]
  | .iter => List.replicate (iterLength 11 s) .mainStep
  | .trigger => List.replicate (s.cfg.samplePeriod - s.trgcnt.toNat) .trgTick
  | .sample a b c => [a.instr, b.instr, c.instr]
  | .settle => List.replicate (s.cfg.settleTicks - s.stcnt.toNat) .settleTick

/-! Reading a trace line (R103). -/

/-- The pieces of a text between separators. -/
def splitChars (sep : Char) : List Char → List (List Char)
  | [] => [[]]
  | c :: cs =>
    if c = sep then [] :: splitChars sep cs
    else
      match splitChars sep cs with
      | [] => [[c]]
      | t :: ts => (c :: t) :: ts

/-- The value of a digit, if it is one below the base. -/
def digitValue (base : Nat) (c : Char) : Option Nat :=
  let n := c.toNat
  let d := if 48 ≤ n ∧ n ≤ 57 then n - 48 else if 97 ≤ n ∧ n ≤ 102 then n - 87 else if 65 ≤ n ∧ n ≤ 70 then n - 55 else base
  if d < base then some d else none

/-- The value of the digits after a first one. `_` is a digit separator (R9), which does not say where it may stand. DESIGN
CHOICE, safe: one `_` between two digits, and nowhere else (log 16). -/
def moreDigits (base : Nat) : Nat → List Char → Option Nat
  | acc, [] => some acc
  | acc, '_' :: c :: cs => (digitValue base c).bind fun d => moreDigits base (acc * base + d) cs
  | acc, c :: cs => (digitValue base c).bind fun d => moreDigits base (acc * base + d) cs

/-- The value of a digit string, which begins with a digit. -/
def digitsValue (base : Nat) : List Char → Option Nat
  | [] => none
  | c :: cs => (digitValue base c).bind fun d => moreDigits base d cs

/-- A value "in decimal or `0x` hex" (R103). -/
def parseValue : List Char → Option Nat
  | '0' :: 'x' :: ds => digitsValue 16 ds
  | ds => digitsValue 10 ds

/-- An encoded event word, "10 hex digits" (R103). R103 does not say what a reader does with another spelling. DESIGN CHOICE,
safe: exactly `0x` and ten hex digits without `_`, as in its example, and anything else is refused (log 16). -/
def parseEventWord : List Char → Option EventWord
  | '0' :: 'x' :: ds =>
    if ds.length = 10 ∧ '_' ∉ ds then (digitsValue 16 ds).map fun v => BitVec.ofNat 40 v else none
  | _ => none

/-- An operand `name=value` (R103). -/
def parseOperand (t : List Char) : Option (String × Nat) :=
  match splitChars '=' t with
  | [name, value] => (parseValue value).map fun v => (String.ofList name, v)
  | _ => none

/-- The operand `name` as a number of at most `bits` bits; "an omitted operand field is 0" (R103). -/
def operand (ops : List (String × Nat)) (name : String) (bits : Nat) : Option Nat :=
  let v := (ops.lookup name).getD 0
  if v < 2 ^ bits then some v else none

/-- The operand `name` as one bit. -/
def operandBit (ops : List (String × Nat)) (name : String) : Option Bool := (operand ops name 1).map (· == 1)

/-- Every operand is one of `names`, and none is given twice. -/
def onlyNames (names : List String) (ops : List (String × Nat)) : Bool :=
  ops.all (fun o => names.contains o.1) && decide (ops.map Prod.fst).Nodup

/-- The operation of a line without operands. -/
def noOperands (ops : List (String × Nat)) (i : Instr) : Option Instr := if ops.isEmpty then some i else none

/-- The operation a mnemonic and its operands name (R92, R103); an ill-formed one is refused (R94). -/
def operationOf (mnemonic : String) (ops : List (String × Nat)) : Option Instr :=
  match mnemonic with
  | "RESET" => noOperands ops .reset
  | "SAMPLER_INIT" => noOperands ops .samplerInit
  | "SEQ_START" => noOperands ops .seqStart
  | "MAIN_START" => noOperands ops .mainStart
  | "BUS_CMD" =>
    if onlyNames ["d"] ops then (operand ops "d" 32).map fun d => .busCmd (BitVec.ofNat 32 d) else none
  | "BUS_STATREQ" => noOperands ops .busStatreq
  | "TX_DONE" =>
    if onlyNames ["arb", "err"] ops then
      (operandBit ops "arb").bind fun a => (operandBit ops "err").map fun e => .txDone a e
    else none
  | "AGG_QUERY" => if onlyNames ["bus_err"] ops then (operandBit ops "bus_err").map .aggQuery else none
  | "SMP_STATUS" => noOperands ops .smpStatus
  | "SEQ_STATUS" => noOperands ops .seqStatus
  | "READ_TARGETS" => noOperands ops .readTargets
  | "READ_SAMPLE" =>
    if onlyNames ["ch"] ops then
      (operand ops "ch" 2).bind fun c => if c = 3 then none else some (.readSample (BitVec.ofNat 2 c))
    else none
  | "TRG_TICK" => noOperands ops .trgTick
  | "CONV" =>
    if onlyNames ["v", "err", "ovr"] ops then
      (operand ops "v" 16).bind fun v => (operandBit ops "err").bind fun e =>
        (operandBit ops "ovr").map fun o => .conv (BitVec.ofNat 16 v) e o
    else none
  | "SETTLE_TICK" => noOperands ops .settleTick
  | "ISR_SMP" => noOperands ops .isrSmp
  | "ISR_SEQ" => noOperands ops .isrSeq
  | "ISR_BUS" => noOperands ops .isrBus
  | "MAIN_STEP" => noOperands ops .mainStep
  | _ => none

/-- What a line after `->` says the step returned (R101, R103). R103 shows a status code only. DESIGN CHOICE, safe: a word is
written as a value is, in decimal or `0x` hex, and has at most 32 bits (log 16). -/
def parseResponse (t : List Char) : Option Response :=
  match String.ofList t with
  | "OK" => some (Response.ofOk true)
  | "NOT_OK" => some (Response.ofOk false)
  | _ => (parseValue t).bind fun v => if v < 2 ^ 32 then some (.word (BitVec.ofNat 32 v)) else none

/-- One line of a trace: the operation and, where the line has them, the encoded event word after `;` and the response
after `->` (R103). -/
structure TraceLine where
  event : Instr
  word : Option EventWord
  response : Option Response
  deriving DecidableEq, Repr

/-- The response is of the kind the operation returns: a status code, a word, or nothing at all (R101). -/
def responseFits (i : Instr) (r : Response) : Bool :=
  match i, r with
  | .aggQuery _, .status _ | .smpStatus, .status _ | .seqStatus, .status _ => true
  | .readTargets, .word _ | .readSample _, .word _ => true
  | .aggQuery _, _ | .smpStatus, _ | .seqStatus, _ | .readTargets, _ | .readSample _, _ => false
  | .reset, r | .samplerInit, r | .seqStart, r | .mainStart, r | .busCmd _, r | .busStatreq, r | .txDone _ _, r | .trgTick, r
  | .conv _ _ _, r | .settleTick, r | .isrSmp, r | .isrSeq, r | .isrBus, r | .mainStep, r => r == .nothing

/-- The end of a line, after its operands: nothing, `; WORD`, `-> RESPONSE`, or both in this order (R103). -/
def parseLineEnd (i : Instr) : List (List Char) → Option TraceLine
  | [] => some { event := i, word := none, response := none }
  | [['-', '>'], r] => (parseResponse r).map fun v => { event := i, word := none, response := some v }
  | [[';'], w] => (parseEventWord w).map fun v => { event := i, word := some v, response := none }
  | [[';'], w, ['-', '>'], r] =>
    (parseEventWord w).bind fun v => (parseResponse r).map fun x => { event := i, word := some v, response := some x }
  | _ => none

/-- The operands of a line, then its end. -/
def parseOperands (mnemonic : String) (ops : List (String × Nat)) : List (List Char) → Option TraceLine
  | [] => (operationOf mnemonic ops).bind fun i => parseLineEnd i []
  | t :: ts =>
    if t = [';'] ∨ t = ['-', '>'] then (operationOf mnemonic ops).bind fun i => parseLineEnd i (t :: ts)
    else (parseOperand t).bind fun o => parseOperands mnemonic (ops ++ [o]) ts

/-- A line of a trace (R103). DESIGN CHOICE, safe: an encoded word on the line must be the word of its operation, and a
response must be of the kind its operation returns (R101; log 16). Whether the step does return it is not read here. -/
def parseTraceLine (text : List Char) : Option TraceLine :=
  match (splitChars ' ' text).filter (fun t => !t.isEmpty) with
  | [] => none
  | m :: ts =>
    (parseOperands (String.ofList m) [] ts).bind fun l =>
      if (l.word = none ∨ l.word = some (encode l.event)) ∧ l.response.all (responseFits l.event) then some l else none

/-- The arguments of `SAMPLE`, each word with the operands that follow it. -/
def groupFlags : List (List Char) → List (List (List Char))
  | [] => []
  | t :: ts =>
    match groupFlags ts with
    | (u :: us) :: gs => if '=' ∈ u then (t :: u :: us) :: gs else [t] :: (u :: us) :: gs
    | gs => [t] :: gs

/-- A word of `SAMPLE` and its flags. R104 gives no way to write the flags of the earlier words. DESIGN CHOICE, safe: `err=e`
and `ovr=o` belong to the word they follow (log 16). -/
def parseSampled : List (List Char) → Option Sampled
  | [] => none
  | w :: flags =>
    (parseValue w).bind fun v => (flags.mapM parseOperand).bind fun ops =>
      if v < 2 ^ 16 ∧ onlyNames ["err", "ovr"] ops then
        (operandBit ops "err").bind fun e => (operandBit ops "ovr").map fun o => ⟨BitVec.ofNat 16 v, e, o⟩
      else none

/-- A line that holds a pseudo-operation (R104). -/
def parsePseudo (text : List Char) : Option Pseudo :=
  match (splitChars ' ' text).filter (fun t => !t.isEmpty) with
  | [] => none
  | m :: ts =>
    match String.ofList m, ts with
    | "BOOT", [] => some .boot
    | "ITER", [] => some .iter
    | "TRIGGER", [] => some .trigger
    | "SETTLE", [] => some .settle
    | "SAMPLE", args =>
      match (groupFlags args).mapM parseSampled with
      | some [a, b, c] => some (.sample a b c)
      | _ => none
    | _, _ => none

/-! Writing a trace line (R103). -/

/-- A hexadecimal digit. -/
def hexDigit (n : Nat) : Char := if n < 10 then Char.ofNat (48 + n) else Char.ofNat (55 + n)

/-- The `k` lowest hexadecimal digits of a number, most significant first. -/
def hexDigits : Nat → Nat → List Char
  | 0, _ => []
  | k + 1, n => hexDigits k (n / 16) ++ [hexDigit (n % 16)]

/-- An operand written as `name=0x…` or, for one digit, `name=…`. -/
def printOperand (name : String) (digits v : Nat) : List Char :=
  ' ' :: name.toList ++ '=' :: (if digits = 1 then [] else ['0', 'x']) ++ hexDigits digits v

/-- The mnemonic of an operation (R92). -/
def mnemonicOf : Instr → String
  | .reset => "RESET"
  | .samplerInit => "SAMPLER_INIT"
  | .seqStart => "SEQ_START"
  | .mainStart => "MAIN_START"
  | .busCmd _ => "BUS_CMD"
  | .busStatreq => "BUS_STATREQ"
  | .txDone _ _ => "TX_DONE"
  | .aggQuery _ => "AGG_QUERY"
  | .smpStatus => "SMP_STATUS"
  | .seqStatus => "SEQ_STATUS"
  | .readTargets => "READ_TARGETS"
  | .readSample _ => "READ_SAMPLE"
  | .trgTick => "TRG_TICK"
  | .conv _ _ _ => "CONV"
  | .settleTick => "SETTLE_TICK"
  | .isrSmp => "ISR_SMP"
  | .isrSeq => "ISR_SEQ"
  | .isrBus => "ISR_BUS"
  | .mainStep => "MAIN_STEP"

/-- The operands of an operation as a trace line writes them (R103). -/
def printOperands (i : Instr) : List Char :=
  match i with
  | .busCmd d => printOperand "d" 8 d.toNat
  | .txDone a e => printOperand "arb" 1 a.toNat ++ printOperand "err" 1 e.toNat
  | .aggQuery b => printOperand "bus_err" 1 b.toNat
  | .readSample c => printOperand "ch" 1 c.toNat
  | .conv v e o => printOperand "v" 4 v.toNat ++ printOperand "err" 1 e.toNat ++ printOperand "ovr" 1 o.toNat
  | .reset | .samplerInit | .seqStart | .mainStart | .busStatreq | .smpStatus | .seqStatus | .readTargets | .trgTick
  | .settleTick | .isrSmp | .isrSeq | .isrBus | .mainStep => []

/-- A trace line for an operation, with its encoded event word as 10 hex digits after `;` (R103). -/
def printTraceLine (i : Instr) : List Char :=
  (mnemonicOf i).toList ++ printOperands i ++ [' ', ';', ' ', '0', 'x'] ++ hexDigits 10 (encode i).toNat

end Sys2Proof.Machine
end

