-- ==== Sys2Proof/Safety.lean ====
section
/-! DEFINITION. The terms the claims are made in: what a step leaves unchanged, runs and reachable states, the invariants of
10_state.md R41 and the couplings that make them inductive, quiescence (R305) and weak fairness (R290). -/

namespace Sys2Proof.Machine

/-- The operation has a step in this state (R10). -/
def enabled (i : Instr) (s : State) : Bool :=
  match exec i s with
  | .next _ => true
  | .fault _ => false
  | .refused _ => false

/-- Every register but those listed, the configuration, the events still to come and the count of free values are as
before. The response is not a register. -/
def KeepsAllBut (rs : List Reg) (s t : State) : Prop :=
  (∀ r : Reg, r ∉ rs → t.reg r = s.reg r) ∧ t.cfg = s.cfg ∧ t.events = s.events ∧ t.draws = s.draws

/-- Every bit of a register but those listed is as before (R74). -/
def KeepsBits (bits : List Nat) (w w' : Word) : Prop := ∀ i : Nat, i ∉ bits → w'.getLsbD i = w.getLsbD i

/-- The operation map of R92 as a table: each `OP` value with the operand bits that its row of R93 names. -/
def operationMap : List (OpCode × Word) :=
  [(0x01, 0), (0x02, 0), (0x03, 0), (0x04, 0), (0x08, 0xFFFFFFFF), (0x09, 0), (0x0A, 0x3), (0x0C, 0x1), (0x0D, 0),
    (0x0E, 0), (0x0F, 0), (0x10, 0x3), (0x20, 0), (0x21, 0x3FFFF), (0x22, 0), (0x30, 0), (0x31, 0), (0x32, 0), (0x38, 0)]

/-- A run: the operations one after another, stopping at the first that is not a step. -/
def execAll : List Instr → State → Result
  | [], s => .next s
  | i :: is, s =>
    match exec i s with
    | .next t => execAll is t
    | .fault f => .fault f
    | .refused r => .refused r

/-- The states a run reaches from power-on reset in a legal configuration (R8, R41, R300). -/
inductive Reachable : State → Prop where
  | powerOn (cfg : Params) (draws : Nat) (h : cfg.legal = true) : Reachable (State.powerOn cfg draws)
  | step (s t : State) (i : Instr) (hs : Reachable s) (hi : i.wellFormed = true) (h : exec i s = .next t) : Reachable t

/-! Invariants. -/

/-- "Unlisted bits of a control register are reserved, read as 0 and are never written to 1" (R22), and STAT's hardwired
bits are 0 (R26, R41). -/
def ReservedClear (s : State) : Prop :=
  Stat.read s.stat = s.stat ∧ getField 11 21 s.smpctl = 0 ∧ getField 6 26 s.seqctl = 0 ∧ getField 6 26 s.out = 0 ∧
    getField 2 2 s.mainctl = 0 ∧ getField 10 22 s.mainctl = 0 ∧ getField 4 28 s.busctl = 0

/-- The values of the shared state and of the sampler (R41), with what makes them inductive: no sequence and no completion
before the sampler is Sampling, and no leftover indication outside a sequence or a pending completion. -/
def SamplerInv (s : State) : Prop :=
  s.cfg.legal = true ∧ s.ft.toNat ≤ s.cfg.focusMax ∧
    Smpctl.sst s.smpctl ≠ 3#2 ∧ Smpctl.wix s.smpctl ≠ 3#2 ∧ s.trgcnt.toNat < s.cfg.samplePeriod ∧
    Smpctl.first s.smpctl = !Stat.smpNst s.stat ∧
    (Smpctl.sst s.smpctl ≠ sstSampling →
      Smpctl.busy s.smpctl = false ∧ Smpctl.cpend s.smpctl = false ∧ Smpctl.first s.smpctl = false) ∧
    (Smpctl.busy s.smpctl = false →
      Smpctl.wix s.smpctl = 0#2 ∧ Smpctl.aerr s.smpctl = false ∧ Smpctl.aovr s.smpctl = false) ∧
    (Smpctl.cpend s.smpctl = false → Smpctl.cerr s.smpctl = false ∧ Smpctl.covr s.smpctl = false)

/-- The values of the sequencer, of the main loop and of the outputs (R41), with what makes them inductive: a setPhase runs
only behind an open sequencer gate, its target differs from the current phase until SP4, and the settle timer is stopped
and reset between SP2 and SP5 (R233, R235). -/
def ControlInv (s : State) : Prop :=
  s.cfg.legal = true ∧ s.rt.toNat ≤ 2 ∧ Seqctl.cp s.seqctl ≠ 3#2 ∧ Mainctl.tgt s.mainctl ≠ 3#2 ∧
    Out.foc s.out ≠ 3#2 ∧ Out.axa s.out ≠ 3#2 ∧ Out.axb s.out ≠ 3#2 ∧
    (Mainctl.mpc s.mainctl).toNat ≤ 10 ∧ s.stcnt.toNat ≤ s.cfg.settleTicks ∧
    (Seqctl.sten s.seqctl = true → s.stcnt.toNat < s.cfg.settleTicks) ∧
    (Seqctl.started s.seqctl = false →
      Stat.seqNst s.stat = true ∧ Seqctl.sten s.seqctl = false ∧ Seqctl.stelapsed s.seqctl = false) ∧
    (Mainctl.mpc s.mainctl = 5#4 ∧ Mainctl.g s.mainctl = true → Stat.seqNst s.stat = false) ∧
    (6 ≤ (Mainctl.mpc s.mainctl).toNat → Stat.seqNst s.stat = false) ∧
    (7 ≤ (Mainctl.mpc s.mainctl).toNat ∧ (Mainctl.mpc s.mainctl).toNat ≤ 9 →
      Seqctl.cp s.seqctl ≠ Mainctl.tgt s.mainctl) ∧
    (8 ≤ (Mainctl.mpc s.mainctl).toNat → Seqctl.sten s.seqctl = false ∧ s.stcnt = 0#32)

/-- The values the main loop latches and the bus port holds (R35, R37, R41): PV and FTL in range, the wait exactly while a
word is transmitted, an empty mailbox clear, and the status word's upper half 0 (R98). -/
def PortInv (s : State) : Prop :=
  s.cfg.legal = true ∧ s.ft.toNat ≤ s.cfg.focusMax ∧ s.ftl.toNat ≤ s.cfg.focusMax ∧ s.pv.toNat ≤ s.cfg.mask / s.cfg.scale ∧
    Busctl.bwait s.busctl = Busctl.txv s.busctl ∧
    (Busctl.mfull s.busctl = false → Busctl.mkind s.busctl = false) ∧
    (Busctl.mfull s.busctl = false ∨ Busctl.mkind s.busctl = true → s.mdata = 0#32) ∧
    s.txw.extractLsb' 16 16 = 0#16

/-- "The focus axis is not driven before the first successful completion" (R303): while SMP_NST is 1 the focus output is
IDLE, and the gate latched for M3 is closed. -/
def FocusHeldUntilFirstSample (s : State) : Prop :=
  (Stat.smpNst s.stat = true → Out.foc s.out = Dir.idle.code) ∧
    (Mainctl.mpc s.mainctl = 3#4 ∧ Mainctl.g s.mainctl = true → Stat.smpNst s.stat = false)

/-- A safe state: legal values everywhere (R41), reserved bits 0 (R22), and no focus command before the first sample (R303). -/
def SafeState (s : State) : Prop :=
  ReservedClear s ∧ SamplerInv s ∧ ControlInv s ∧ PortInv s ∧ FocusHeldUntilFirstSample s

/-! Progress. -/

/-- "No agent of the block has an enabled step" (R305): none of the steps R290 lists is enabled. -/
def AgentsStopped (s : State) : Prop := ∀ i : Instr, i.wellFormed = true → i.agent ≠ .host → enabled i s = false

/-- "Before `SAMPLER_INIT`, `SEQ_START` and `MAIN_START` with an empty mailbox" (R305), and no message being served: R305 leaves
a Status-request's wait to R315, which says that it is not quiescent. -/
def BeforeBoot (s : State) : Prop :=
  Smpctl.sst s.smpctl = sstIdle ∧ Seqctl.started s.seqctl = false ∧ Mainctl.mrun s.mainctl = false ∧
    Busctl.mfull s.busctl = false ∧ handlerActive s = false

/-- A quiescent state: no agent of the block has an enabled step, and it is one of the states R305 lists, "and no other". The
guards stop every agent in further reachable states: after `SEQ_START` alone once elapsed and handled, which the list leaves
out, and in a wait before boot, which R182 and R315 leave out. DEDUCED, safe: the list decides there (log 13). -/
def Quiescent (s : State) : Prop := AgentsStopped s ∧ BeforeBoot s

/-- After all three boot operations (R302): from here on "the LCB never halts" (R305). -/
def BootComplete (s : State) : Prop :=
  Smpctl.sst s.smpctl ≠ sstIdle ∧ Seqctl.started s.seqctl = true ∧ Mainctl.mrun s.mainctl = true

/-- An agent has an enabled step. -/
def AgentEnabled (a : Agent) (s : State) : Prop := ∃ i : Instr, i.wellFormed = true ∧ i.agent = a ∧ enabled i s = true

/-- An infinite execution: the operation `ev n` leads from `st n` to `st (n + 1)` (R305). -/
def IsExecution (st : Nat → State) (ev : Nat → Instr) : Prop :=
  ∀ n, (ev n).wellFormed = true ∧ exec (ev n) (st n) = .next (st (n + 1))

/-- Weak fairness: "every step of a block agent that stays enabled is eventually taken" (R290), TX_DONE not among them. -/
def WeaklyFair (st : Nat → State) (ev : Nat → Instr) : Prop :=
  ∀ a : Agent, a ≠ .host → ∀ n, (∀ m, n ≤ m → AgentEnabled a (st m)) → ∃ m, n ≤ m ∧ (ev m).agent = a

/-- The agent that serves each interrupt line (R270). -/
def handlerAgent : IrqLine → Agent
  | .sampler => .samplerHandler
  | .sequencer => .settleHandler
  | .bus => .busHandler

end Sys2Proof.Machine
end

