-- ==== Sys2Proof/Certificates/Slice0/Obligations.lean ====
section
/-! DEFINITION. The statements for the provers, each formalising numbered rules of spec/ over all states and operands. -/

open Sys2Proof Sys2Proof.Machine

/-! Event words. -/

/-- Words written out from the patterns of R93 decode as 95_test_vectors.md table E says. -/
def Obligations.SpecWordsDecodeAsTabulated : Prop :=
  decode 0x0800003202#40 = .ok (.busCmd 0x00003202) ∧ decode 0x08DEAD3202#40 = .ok (.busCmd 0xDEAD3202) ∧
  decode 0x0100000000#40 = .ok .reset ∧ decode 0x0A00000003#40 = .ok (.txDone true true) ∧
  decode 0x0C00000001#40 = .ok (.aggQuery true) ∧ decode 0x1000000002#40 = .ok (.readSample 2) ∧
  decode 0x2100030FFF#40 = .ok (.conv 0x0FFF true true) ∧ decode 0x210000F320#40 = .ok (.conv 0xF320 false false) ∧
  decode 0x3800000000#40 = .ok .mainStep ∧ decode 0x0000000000#40 = .error .undefinedOp ∧
  decode 0x0100000001#40 = .error .reservedOperandBit ∧ decode 0x1000000003#40 = .error .reservedChannel

/-- R94: decoding is total; a word is refused for an unknown OP, a reserved operand bit or channel 3, in this order, and
otherwise names the operation with its operand fields. -/
def Obligations.EveryWordNamesOneOperationOrIsRefused : Prop :=
  ∀ w : EventWord,
    ((∀ row ∈ operationMap, opOf w ≠ row.1) → decode w = .error .undefinedOp) ∧
    (∀ row ∈ operationMap, opOf w = row.1 →
      (opdOf w &&& ~~~row.2 ≠ 0#32 → decode w = .error .reservedOperandBit) ∧
      (opdOf w &&& ~~~row.2 = 0#32 →
        (opOf w = 0x10#8 ∧ opdOf w = 3#32 → decode w = .error .reservedChannel) ∧
        (¬ (opOf w = 0x10#8 ∧ opdOf w = 3#32) → ∃ i, decode w = .ok i ∧ i.op = opOf w ∧ i.opd = opdOf w)))

/-- R92, R93: every well-formed operation, with every operand value, is what its own event word decodes to. -/
def Obligations.DecodingAnEncodedOperationGivesItBack : Prop :=
  ∀ i : Instr, i.wellFormed = true → decode (encode i) = .ok i

/-- R94: a word that decodes is the one word of its operation, and the operation is well formed. -/
def Obligations.EachOperationHasOneWord : Prop :=
  ∀ (w : EventWord) (i : Instr), decode w = .ok i → encode i = w ∧ i.wellFormed = true

/-- R90, R94, R278: when the next event word decodes to an operation, the step is that operation's meaning in the state with
the word taken from the trace; a word that names no operation is refused. -/
def Obligations.StepRunsTheDecodedOperation : Prop :=
  ∀ (s : State) (w : EventWord) (rest : List EventWord), s.events = w :: rest →
    (∀ i : Instr, decode w = .ok i → step s = exec i { s with events := rest }) ∧
    (∀ e : DecodeError, decode w = .error e → step s = .refused (.illegalEventWord e))

/-- R7, R8: a configuration is legal only under five conditions, they are all that one with the widths R7 fixes needs, and no
operation has a meaning in a configuration that is not legal. That other widths than R7's are among these is the model's
reading (log 10), and so is where the configuration stands (log 1). -/
def Obligations.IllegalConfigurationsAreRefused : Prop :=
  (∀ p : Params, p.legal = true → 1 ≤ p.scale ∧ 1 ≤ p.samplePeriod ∧ 1 ≤ p.settleTicks ∧ p.sampleBits ≤ p.sampleWord ∧
    (2 ^ p.sampleBits - 1) / p.scale ≤ p.focusMax) ∧
  (∀ p : Params, p.word = 32 → p.sampleWord = 16 → p.nch = 3 →
    1 ≤ p.scale ∧ 1 ≤ p.samplePeriod ∧ 1 ≤ p.settleTicks ∧ p.sampleBits ≤ p.sampleWord ∧
      (2 ^ p.sampleBits - 1) / p.scale ≤ p.focusMax → p.legal = true) ∧
  ∀ (i : Instr) (s : State), s.cfg.legal = false → exec i s = .refused .illegalConfiguration

/-- The model's own: no operation changes the configuration or the events still to come (log 1, log 4). -/
def Obligations.NoOperationChangesConfigurationOrTrace : Prop :=
  ∀ (i : Instr) (s t : State), exec i s = .next t → t.cfg = s.cfg ∧ t.events = s.events

/-! Reset. -/

/-- R300, R40: from any state RESET installs the reset values; the sample and staging words are not constrained. -/
def Obligations.ResetInstallsTheResetValues : Prop :=
  decode 0x0100000000#40 = .ok .reset ∧
  ∀ s : State, s.cfg.legal = true → ∃ t, exec .reset s = .next t ∧
    t.ft = 0 ∧ t.rt = 0 ∧ t.stat = 0x00000120#32 ∧ t.smpctl = 0 ∧ t.trgcnt = 0 ∧ t.seqctl = 0 ∧ t.stcnt = 0 ∧ t.out = 0 ∧
    t.mainctl = 0 ∧ t.pv = 0 ∧ t.ftl = 0 ∧ t.busctl = 0 ∧ t.mdata = 0 ∧ t.txw = 0 ∧ t.resp = .nothing ∧
    ∀ l : IrqLine, pending l t = false

/-- R40: the machine's first state holds the reset values. -/
def Obligations.FirstStateHoldsTheResetValues : Prop :=
  State.reset.ft = 0 ∧ State.reset.rt = 0 ∧ State.reset.stat = 0x00000120#32 ∧ State.reset.smpctl = 0 ∧
  State.reset.trgcnt = 0 ∧ State.reset.seqctl = 0 ∧ State.reset.stcnt = 0 ∧ State.reset.out = 0 ∧
  State.reset.mainctl = 0 ∧ State.reset.pv = 0 ∧ State.reset.ftl = 0 ∧ State.reset.busctl = 0 ∧
  State.reset.mdata = 0 ∧ State.reset.txw = 0

/-- R301: after RESET no agent of the block is enabled, and once a message arrives only ISR_BUS is. -/
def Obligations.AfterResetOnlyTheBusHandlerCanRun : Prop :=
  ∀ s t : State, exec .reset s = .next t →
    Quiescent t ∧ Seqctl.cp t.seqctl = 0#2 ∧ Stat.seqNst t.stat = true ∧ Stat.smpNst t.stat = true ∧
    ∀ m : Instr, (m = .busStatreq ∨ ∃ d, m = .busCmd d) → ∃ u, exec m t = .next u ∧ enabled .isrBus u = true ∧
      ∀ i : Instr, i.wellFormed = true → i.agent ≠ .host → i.agent ≠ .busHandler → enabled i u = false

/-! Shared Control State. -/

/-- R123. -/
def Obligations.ReadTargetsRespondsBothTargets : Prop :=
  decode 0x0F00000000#40 = .ok .readTargets ∧
  ∀ s : State, s.cfg.legal = true → ∃ w : Word, exec .readTargets s = .next { s with resp := .word w } ∧
    w.extractLsb' 0 8 = s.rt.extractLsb' 0 8 ∧ w.extractLsb' 8 8 = s.ft.extractLsb' 0 8 ∧ w.extractLsb' 16 16 = 0#16

/-- R124: the raw word of the channel; channel 3 is refused, at decode and by the operation itself. -/
def Obligations.ReadSampleRespondsTheRawWord : Prop :=
  decode 0x1000000000#40 = .ok (.readSample 0) ∧ decode 0x1000000001#40 = .ok (.readSample 1) ∧
  decode 0x1000000002#40 = .ok (.readSample 2) ∧ decode 0x1000000003#40 = .error .reservedChannel ∧
  ∀ s : State, s.cfg.legal = true →
    exec (.readSample 0) s = .next { s with resp := .word (s.smp0.setWidth 32) } ∧
    exec (.readSample 1) s = .next { s with resp := .word (s.smp1.setWidth 32) } ∧
    exec (.readSample 2) s = .next { s with resp := .word (s.smp2.setWidth 32) } ∧
    exec (.readSample 3) s = .refused .reservedChannel

/-- R78: asking again at once gives the same answer for the four pure queries; an aggregate query that finds an overrun
answers NOT_OK and clears it, and the next one answers OK unless `bus_err`. -/
def Obligations.RepeatedQueriesAnswerAsTheRuleSays : Prop :=
  (∀ (i : Instr) (s t : State), (i = .smpStatus ∨ i = .seqStatus ∨ i = .readTargets ∨ ∃ c, i = .readSample c) →
    exec i s = .next t → exec i t = .next t ∧ t = { s with resp := t.resp }) ∧
  ∀ (b b' : Bool) (s : State), s.cfg.legal = true → Stat.smpOvr s.stat = true →
    ∃ t u, exec (.aggQuery b) s = .next t ∧ t.resp = .status 1#1 ∧ Stat.smpOvr t.stat = false ∧
      exec (.aggQuery b') t = .next u ∧ u.resp = .status (if b' = true then 1#1 else 0#1)

/-- R23, R24, R31, R81: which operations can change each target and the rotary state. -/
def Obligations.SharedFieldsChangeOnlyByTheirWriters : Prop :=
  ∀ (i : Instr) (s t : State), exec i s = .next t →
    (t.ft ≠ s.ft → i = .isrBus ∨ i = .isrSmp ∨ i = .reset) ∧
    (t.rt ≠ s.rt → i = .isrBus ∨ i = .reset) ∧
    (Seqctl.cp t.seqctl ≠ Seqctl.cp s.seqctl → i = .seqStart ∨ i = .mainStep ∨ i = .reset) ∧
    (Seqctl.tip t.seqctl ≠ Seqctl.tip s.seqctl → i = .seqStart ∨ i = .mainStep ∨ i = .isrSeq ∨ i = .reset)

/-- R26, R153, R154, R155, R216: how the sticky flags and the first-completion marker can change. -/
def Obligations.StickyFlagsChangeOnlyAsNamed : Prop :=
  ∀ (i : Instr) (s t : State), exec i s = .next t →
    (Stat.smpOvr s.stat = false ∧ Stat.smpOvr t.stat = true → i = .isrSmp) ∧
    (Stat.smpOvr s.stat = true ∧ Stat.smpOvr t.stat = false → (∃ b, i = .aggQuery b) ∨ i = .reset) ∧
    (Stat.smpErr t.stat ≠ Stat.smpErr s.stat → i = .isrSmp ∨ i = .reset) ∧
    (Stat.smpNst s.stat = false ∧ Stat.smpNst t.stat = true → i = .reset) ∧
    (Stat.smpNst s.stat = true ∧ Stat.smpNst t.stat = false → i = .isrSmp) ∧
    (Stat.seqNst s.stat = false ∧ Stat.seqNst t.stat = true → i = .reset) ∧
    (Stat.seqNst s.stat = true ∧ Stat.seqNst t.stat = false → i = .isrSeq) ∧
    (Smpctl.first s.smpctl = true ∧ Smpctl.first t.smpctl = false → i = .reset) ∧
    (Smpctl.first s.smpctl = false ∧ Smpctl.first t.smpctl = true → i = .isrSmp)

/-- R270, R272: a line becomes pending only by its own event and is cleared only by its own handler or RESET. -/
def Obligations.PendingLinesChangeOnlyAsNamed : Prop :=
  ∀ (i : Instr) (s t : State), exec i s = .next t →
    (pending .sampler s = false ∧ pending .sampler t = true → ∃ v e o, i = .conv v e o) ∧
    (pending .sampler s = true ∧ pending .sampler t = false → i = .isrSmp ∨ i = .reset) ∧
    (pending .sequencer s = false ∧ pending .sequencer t = true → i = .settleTick) ∧
    (pending .sequencer s = true ∧ pending .sequencer t = false → i = .isrSeq ∨ i = .reset) ∧
    (pending .bus s = false ∧ pending .bus t = true → i = .busStatreq ∨ ∃ d, i = .busCmd d) ∧
    (pending .bus s = true ∧ pending .bus t = false → i = .isrBus ∨ i = .reset)

/-! Position Sampler. -/

/-- R140: the scaled position value, and that a legal configuration bounds it by the largest focus target. -/
def Obligations.ScaledPositionIsFloorOfMaskedSample : Prop :=
  ∀ (p : Params) (raw : SampleWord), p.legal = true →
    (scale p raw).toNat = (raw.toNat % 2 ^ p.sampleBits) / p.scale ∧
    (scale p raw).toNat ≤ (2 ^ p.sampleBits - 1) / p.scale ∧ (scale p raw).toNat ≤ p.focusMax

/-- R142. -/
def Obligations.SamplerInitArmsOnlyFromIdle : Prop :=
  decode 0x0200000000#40 = .ok .samplerInit ∧
  ∀ s : State, s.cfg.legal = true → ∃ t, exec .samplerInit s = .next t ∧ t.resp = .nothing ∧
    (Smpctl.sst s.smpctl = 0#2 →
      Smpctl.sst t.smpctl = 1#2 ∧ t.trgcnt = 0 ∧ Smpctl.wix t.smpctl = 0#2 ∧ Smpctl.busy t.smpctl = false ∧
      Smpctl.aerr t.smpctl = false ∧ Smpctl.aovr t.smpctl = false ∧
      KeepsBits [0, 1, 2, 3, 4, 6, 7] s.smpctl t.smpctl ∧ KeepsAllBut [.smpctl, .trgcnt] s t) ∧
    (Smpctl.sst s.smpctl ≠ 0#2 → t = { s with resp := .nothing })

/-- R143, R144: the tick, and the trigger edge of the tick that reaches the period. -/
def Obligations.TriggerTickCountsAndRaisesTheEdge : Prop :=
  decode 0x2000000000#40 = .ok .trgTick ∧
  ∀ s : State, s.cfg.legal = true →
    (Smpctl.sst s.smpctl = 0#2 → exec .trgTick s = .refused (.notEnabled .trgTick)) ∧
    (Smpctl.sst s.smpctl ≠ 0#2 → ∃ t, exec .trgTick s = .next t ∧ t.resp = .nothing ∧
      KeepsAllBut [.trgcnt, .smpctl] s t ∧
      (s.trgcnt.toNat + 1 ≠ s.cfg.samplePeriod → t.trgcnt = s.trgcnt + 1 ∧ t.smpctl = s.smpctl) ∧
      (s.trgcnt.toNat + 1 = s.cfg.samplePeriod → t.trgcnt = 0 ∧ Smpctl.busy t.smpctl = true ∧
        Smpctl.aovr t.smpctl = (Smpctl.aovr s.smpctl || Smpctl.busy s.smpctl) ∧
        Smpctl.sst t.smpctl = (if Smpctl.sst s.smpctl = 1#2 then 2#2 else Smpctl.sst s.smpctl) ∧
        KeepsBits [0, 1, 4, 7] s.smpctl t.smpctl))

/-- R146, R147, R148: one converted channel; the third ends the sequence, commits all three words unless a transfer erred,
and raises the completion, merging it with one still pending. WIX = 3 never occurs (R29) and is left out (log 8). -/
def Obligations.ConversionDepositsCommitsAndRaisesCompletion : Prop :=
  (∀ v : SampleWord, decode (0x210000#24 ++ v) = .ok (.conv v false false) ∧ decode (0x210001#24 ++ v) = .ok (.conv v true false) ∧
    decode (0x210002#24 ++ v) = .ok (.conv v false true) ∧ decode (0x210003#24 ++ v) = .ok (.conv v true true)) ∧
  ∀ (v : SampleWord) (e o : Bool) (s : State), s.cfg.legal = true →
    (Smpctl.busy s.smpctl = false → exec (.conv v e o) s = .refused (.notEnabled (.conv v e o))) ∧
    (Smpctl.busy s.smpctl = true → ∃ t, exec (.conv v e o) s = .next t ∧ t.resp = .nothing ∧
      (Smpctl.wix s.smpctl = 0#2 ∨ Smpctl.wix s.smpctl = 1#2 →
        (Smpctl.wix s.smpctl = 0#2 → t.buf0 = v ∧ Smpctl.wix t.smpctl = 1#2 ∧ KeepsAllBut [.buf0, .smpctl] s t) ∧
        (Smpctl.wix s.smpctl = 1#2 → t.buf1 = v ∧ Smpctl.wix t.smpctl = 2#2 ∧ KeepsAllBut [.buf1, .smpctl] s t) ∧
        Smpctl.aerr t.smpctl = (Smpctl.aerr s.smpctl || e) ∧ Smpctl.aovr t.smpctl = (Smpctl.aovr s.smpctl || o) ∧
        KeepsBits [2, 3, 6, 7] s.smpctl t.smpctl) ∧
      (Smpctl.wix s.smpctl = 2#2 →
        t.buf2 = v ∧ Smpctl.wix t.smpctl = 0#2 ∧ Smpctl.busy t.smpctl = false ∧ Smpctl.aerr t.smpctl = false ∧
        Smpctl.aovr t.smpctl = false ∧ Smpctl.cpend t.smpctl = true ∧
        Smpctl.cerr t.smpctl = (Smpctl.cerr s.smpctl || (Smpctl.aerr s.smpctl || e)) ∧
        Smpctl.covr t.smpctl = (Smpctl.covr s.smpctl || (Smpctl.aovr s.smpctl || o) || Smpctl.cpend s.smpctl) ∧
        KeepsBits [2, 3, 4, 6, 7, 8, 9, 10] s.smpctl t.smpctl ∧
        ((Smpctl.aerr s.smpctl || e) = false →
          t.smp0 = s.buf0 ∧ t.smp1 = s.buf1 ∧ t.smp2 = v ∧ KeepsAllBut [.buf2, .smpctl, .smp0, .smp1, .smp2] s t) ∧
        ((Smpctl.aerr s.smpctl || e) = true → KeepsAllBut [.buf2, .smpctl] s t)))

/-- R27, R76, R147: the visible sample changes only by a conversion that ends an error-free sequence, all three words
together, and by RESET. -/
def Obligations.VisibleSampleChangesOnlyByCommitOrReset : Prop :=
  ∀ (i : Instr) (s t : State), exec i s = .next t → (t.smp0 ≠ s.smp0 ∨ t.smp1 ≠ s.smp1 ∨ t.smp2 ≠ s.smp2) →
    i = .reset ∨ ∃ v o, i = .conv v false o ∧ Smpctl.aerr s.smpctl = false ∧
      2 ≤ (Smpctl.wix s.smpctl).toNat ∧ t.smp0 = s.buf0 ∧ t.smp1 = s.buf1 ∧ t.smp2 = v

/-- R150 to R152, R155: the completion handler. -/
def Obligations.SamplerHandlerRecordsErrorOverrunAndSeedsOnce : Prop :=
  decode 0x3000000000#40 = .ok .isrSmp ∧
  ∀ s : State, s.cfg.legal = true →
    (¬ (Smpctl.cpend s.smpctl = true ∧ Busctl.bwait s.busctl = false) →
      exec .isrSmp s = .refused (.notEnabled .isrSmp)) ∧
    (Smpctl.cpend s.smpctl = true ∧ Busctl.bwait s.busctl = false → ∃ t, exec .isrSmp s = .next t ∧ t.resp = .nothing ∧
      Smpctl.cpend t.smpctl = false ∧ Smpctl.cerr t.smpctl = false ∧ Smpctl.covr t.smpctl = false ∧
      Stat.smpErr t.stat = Smpctl.cerr s.smpctl ∧
      Stat.smpOvr t.stat = (Stat.smpOvr s.stat || Smpctl.covr s.smpctl) ∧
      (Smpctl.cerr s.smpctl = false ∧ Smpctl.first s.smpctl = false →
        t.ft.toNat = (s.smp0.toNat &&& (2 ^ s.cfg.sampleBits - 1)) / s.cfg.scale ∧ Stat.smpNst t.stat = false ∧
        Smpctl.first t.smpctl = true) ∧
      (Smpctl.cerr s.smpctl = true ∨ Smpctl.first s.smpctl = true →
        t.ft = s.ft ∧ Stat.smpNst t.stat = Stat.smpNst s.stat ∧ Smpctl.first t.smpctl = Smpctl.first s.smpctl) ∧
      KeepsBits [5, 8, 9, 10] s.smpctl t.smpctl ∧ KeepsBits [3, 4, 5] s.stat t.stat ∧
      KeepsAllBut [.smpctl, .stat, .ft] s t)

/-- R160. -/
def Obligations.SamplerStatusIsPure : Prop :=
  decode 0x0D00000000#40 = .ok .smpStatus ∧
  ∀ s : State, s.cfg.legal = true →
    exec .smpStatus s = .next
      { s with resp := .status (if Stat.smpNst s.stat = false ∧ Stat.smpErr s.stat = false then 0#1 else 1#1) }

/-! Bus port. -/

/-- R171, R173. -/
def Obligations.CommandFillsAnEmptyMailbox : Prop :=
  (∀ d : Word, decode (0x08#8 ++ d) = .ok (.busCmd d)) ∧
  ∀ (d : Word) (s : State), s.cfg.legal = true → ∃ t, exec (.busCmd d) s = .next t ∧ t.resp = .nothing ∧
    (Busctl.mfull s.busctl = false → Busctl.mfull t.busctl = true ∧ Busctl.mkind t.busctl = false ∧ t.mdata = d ∧
      KeepsBits [0, 1] s.busctl t.busctl ∧ KeepsAllBut [.busctl, .mdata] s t) ∧
    (Busctl.mfull s.busctl = true → t = { s with resp := .nothing })

/-- R172, R173. -/
def Obligations.StatusRequestFillsAnEmptyMailbox : Prop :=
  decode 0x0900000000#40 = .ok .busStatreq ∧
  ∀ s : State, s.cfg.legal = true → ∃ t, exec .busStatreq s = .next t ∧ t.resp = .nothing ∧
    (Busctl.mfull s.busctl = false → Busctl.mfull t.busctl = true ∧ Busctl.mkind t.busctl = true ∧ t.mdata = 0 ∧
      KeepsBits [0, 1] s.busctl t.busctl ∧ KeepsAllBut [.busctl, .mdata] s t) ∧
    (Busctl.mfull s.busctl = true → t = { s with resp := .nothing })

/-- R98, R174, R175, R177: the bus receive handler decodes a Command or answers a Status-request and waits. -/
def Obligations.BusHandlerDecodesOrAnswers : Prop :=
  decode 0x3200000000#40 = .ok .isrBus ∧
  ∀ s : State, s.cfg.legal = true →
    (¬ (Busctl.mfull s.busctl = true ∧ Busctl.bwait s.busctl = false) →
      exec .isrBus s = .refused (.notEnabled .isrBus)) ∧
    (Busctl.mfull s.busctl = true ∧ Busctl.bwait s.busctl = false → ∃ t, exec .isrBus s = .next t ∧ t.resp = .nothing ∧
      Busctl.mfull t.busctl = false ∧ Busctl.mkind t.busctl = false ∧ t.mdata = 0 ∧
      (Busctl.mkind s.busctl = false →
        t.ft = (if (s.mdata.extractLsb' 8 8).toNat ≤ s.cfg.focusMax then (s.mdata.extractLsb' 8 8).setWidth 32 else s.ft) ∧
        t.rt = (if (s.mdata.extractLsb' 0 8).toNat ≤ 2 then (s.mdata.extractLsb' 0 8).setWidth 32 else s.rt) ∧
        KeepsBits [0, 1] s.busctl t.busctl ∧ KeepsAllBut [.busctl, .mdata, .ft, .rt] s t) ∧
      (Busctl.mkind s.busctl = true →
        t.txw.extractLsb' 0 8 = s.rt.extractLsb' 0 8 ∧
        t.txw.extractLsb' 8 8 = BitVec.ofNat 8 ((s.smp0.toNat &&& (2 ^ s.cfg.sampleBits - 1)) / s.cfg.scale) ∧
        t.txw.extractLsb' 16 16 = 0#16 ∧ Busctl.txv t.busctl = true ∧ Busctl.bwait t.busctl = true ∧
        transmitted t = some { identifier := .status, dataLow := t.txw, dataHigh := 0#32 } ∧
        KeepsBits [0, 1, 2, 3] s.busctl t.busctl ∧ KeepsAllBut [.busctl, .mdata, .txw] s t))

/-- R96, R176: bits 31:16 of a Command's data word have no effect. -/
def Obligations.UpperCommandBitsHaveNoEffect : Prop :=
  ∀ (s : State) (d d' : Word), Busctl.mkind s.busctl = false → d.extractLsb' 0 16 = d'.extractLsb' 0 16 →
    exec .isrBus { s with mdata := d } = exec .isrBus { s with mdata := d' }

/-- R180, R181: the next state does not depend on the result reported. -/
def Obligations.TransmitDoneEndsTheWait : Prop :=
  decode 0x0A00000000#40 = .ok (.txDone false false) ∧ decode 0x0A00000001#40 = .ok (.txDone true false) ∧
  decode 0x0A00000002#40 = .ok (.txDone false true) ∧ decode 0x0A00000003#40 = .ok (.txDone true true) ∧
  ∀ (a e : Bool) (s : State), s.cfg.legal = true →
    (Busctl.bwait s.busctl = false → exec (.txDone a e) s = .refused (.notEnabled (.txDone a e))) ∧
    (Busctl.bwait s.busctl = true → ∃ t, exec (.txDone a e) s = .next t ∧ t.resp = .nothing ∧
      Busctl.bwait t.busctl = false ∧ Busctl.txv t.busctl = false ∧ transmitted t = none ∧ KeepsBits [2, 3] s.busctl t.busctl ∧
      KeepsAllBut [.busctl] s t)

/-- R179, R182: while the block waits for transmit completion and neither TX_DONE nor RESET happens, no handler and no
main-loop step is in the run, whatever else is, and the wait goes on; the state reached is not quiescent (log 13), and a
further step that is neither of the two is enabled there, so the run can go on for ever. -/
def Obligations.UnansweredStatusRequestBlocksCoreForEver : Prop :=
  ∀ (run : List Instr) (s t : State), execAll run s = .next t → Busctl.bwait s.busctl = true →
    (∀ i ∈ run, i ≠ .reset ∧ ∀ a e, i ≠ .txDone a e) →
    Busctl.bwait t.busctl = true ∧ t.txw = s.txw ∧ t.pv = s.pv ∧ t.ftl = s.ftl ∧ t.ft = s.ft ∧ t.rt = s.rt ∧
    Out.foc t.out = Out.foc s.out ∧
    (∀ i ∈ run, i.agent ≠ .samplerHandler ∧ i.agent ≠ .settleHandler ∧ i.agent ≠ .busHandler ∧ i.agent ≠ .mainLoop) ∧
    (s.cfg.legal = true → ¬ Quiescent t ∧
      ∃ i u, i.wellFormed = true ∧ i ≠ .reset ∧ (∀ a e, i ≠ .txDone a e) ∧ exec i t = .next u)

/-- R179: the wait disables no hardware agent and no host operation but TX_DONE depends on it. -/
def Obligations.WaitLeavesHardwareAndHostRunning : Prop :=
  ∀ (i : Instr) (s : State), (∀ a e, i ≠ .txDone a e) →
    (i.agent = .host ∨ i.agent = .samplingTimer ∨ i.agent = .conversionEngine ∨ i.agent = .settleTimer) →
    enabled i { s with busctl := Busctl.setBwait true s.busctl } = enabled i { s with busctl := Busctl.setBwait false s.busctl }

/-- R185. -/
def Obligations.AggregateQueryReadsAndClearsOverrun : Prop :=
  decode 0x0C00000000#40 = .ok (.aggQuery false) ∧ decode 0x0C00000001#40 = .ok (.aggQuery true) ∧
  ∀ (b : Bool) (s : State), s.cfg.legal = true → ∃ t, exec (.aggQuery b) s = .next t ∧
    t.resp = .status (if b = true ∨ Stat.smpOvr s.stat = true then 1#1 else 0#1) ∧
    Stat.smpOvr t.stat = false ∧ KeepsBits [3] s.stat t.stat ∧ KeepsAllBut [.stat] s t

/-! Rotary Phase Sequencer. -/

/-- R205. -/
def Obligations.SequencerStartSeeksHomeOnce : Prop :=
  decode 0x0300000000#40 = .ok .seqStart ∧
  ∀ s : State, s.cfg.legal = true → ∃ t, exec .seqStart s = .next t ∧ t.resp = .nothing ∧
    (Seqctl.started s.seqctl = false →
      Seqctl.started t.seqctl = true ∧ Seqctl.cp t.seqctl = 0#2 ∧ Out.axa t.out = 2#2 ∧ Out.axb t.out = 2#2 ∧
      t.stcnt = 0 ∧ Seqctl.sten t.seqctl = true ∧ Seqctl.tip t.seqctl = true ∧
      KeepsBits [0, 1, 2, 3, 4] s.seqctl t.seqctl ∧ KeepsBits [2, 3, 4, 5] s.out t.out ∧
      KeepsAllBut [.seqctl, .out, .stcnt] s t) ∧
    (Seqctl.started s.seqctl = true → t = { s with resp := .nothing })

/-- R210. -/
def Obligations.SettleTickCountsAndElapses : Prop :=
  decode 0x2200000000#40 = .ok .settleTick ∧
  ∀ s : State, s.cfg.legal = true →
    (Seqctl.sten s.seqctl = false → exec .settleTick s = .refused (.notEnabled .settleTick)) ∧
    (Seqctl.sten s.seqctl = true → ∃ t, exec .settleTick s = .next t ∧ t.resp = .nothing ∧ t.stcnt = s.stcnt + 1 ∧
      KeepsAllBut [.stcnt, .seqctl] s t ∧
      (s.stcnt.toNat + 1 = s.cfg.settleTicks → Seqctl.sten t.seqctl = false ∧ Seqctl.stelapsed t.seqctl = true ∧
        KeepsBits [4, 5] s.seqctl t.seqctl) ∧
      (s.stcnt.toNat + 1 ≠ s.cfg.settleTicks → t.seqctl = s.seqctl))

/-- R210, R211: an armed settle timer elapses after exactly the ticks that are left of its period, and not before. -/
def Obligations.SettleWindowElapsesExactlyOnce : Prop :=
  ∀ s : State, s.cfg.legal = true → s.cfg.settleTicks < 2 ^ 32 → Seqctl.sten s.seqctl = true →
    s.stcnt.toNat < s.cfg.settleTicks →
    (∀ k, k < s.cfg.settleTicks - s.stcnt.toNat → ∃ u, execAll (List.replicate k .settleTick) s = .next u ∧
      Seqctl.sten u.seqctl = true ∧ Seqctl.stelapsed u.seqctl = Seqctl.stelapsed s.seqctl) ∧
    ∃ t, execAll (Pseudo.expand .settle s) s = .next t ∧ t.stcnt.toNat = s.cfg.settleTicks ∧
      Seqctl.sten t.seqctl = false ∧ Seqctl.stelapsed t.seqctl = true ∧ KeepsBits [4, 5] s.seqctl t.seqctl ∧
      KeepsAllBut [.stcnt, .seqctl] s t ∧
      exec .settleTick t = .refused (.notEnabled .settleTick)

/-- R143, R104: an armed sampler reaches its next trigger edge after exactly the ticks that are left of its period. -/
def Obligations.TriggerEdgeComesAfterTheRemainingTicks : Prop :=
  ∀ s : State, s.cfg.legal = true → s.cfg.samplePeriod < 2 ^ 32 → Smpctl.sst s.smpctl ≠ 0#2 →
    s.trgcnt.toNat < s.cfg.samplePeriod →
    (∀ k, k < s.cfg.samplePeriod - s.trgcnt.toNat → ∃ u, execAll (List.replicate k .trgTick) s = .next u ∧
      u.smpctl = s.smpctl ∧ u.trgcnt.toNat = s.trgcnt.toNat + k) ∧
    ∃ t, execAll (Pseudo.expand .trigger s) s = .next t ∧ t.trgcnt = 0 ∧ Smpctl.busy t.smpctl = true ∧
      Smpctl.sst t.smpctl ≠ 1#2 ∧ Smpctl.aovr t.smpctl = (Smpctl.aovr s.smpctl || Smpctl.busy s.smpctl) ∧
      KeepsAllBut [.trgcnt, .smpctl] s t

/-- R215. -/
def Obligations.SettleHandlerIdlesBothAxes : Prop :=
  decode 0x3100000000#40 = .ok .isrSeq ∧
  ∀ s : State, s.cfg.legal = true →
    (¬ (Seqctl.stelapsed s.seqctl = true ∧ Busctl.bwait s.busctl = false) →
      exec .isrSeq s = .refused (.notEnabled .isrSeq)) ∧
    (Seqctl.stelapsed s.seqctl = true ∧ Busctl.bwait s.busctl = false → ∃ t, exec .isrSeq s = .next t ∧ t.resp = .nothing ∧
      Out.axa t.out = 0#2 ∧ Out.axb t.out = 0#2 ∧ Seqctl.stelapsed t.seqctl = false ∧ Stat.seqNst t.stat = false ∧
      Seqctl.tip t.seqctl = false ∧ KeepsBits [2, 3, 4, 5] s.out t.out ∧ KeepsBits [2, 5] s.seqctl t.seqctl ∧
      KeepsBits [8] s.stat t.stat ∧ KeepsAllBut [.out, .seqctl, .stat] s t)

/-- R225, R26: SEQ_ERR is hardwired 0, so the status is OK exactly when SEQ_NST is clear. -/
def Obligations.SequencerStatusIsPure : Prop :=
  decode 0x0E00000000#40 = .ok .seqStatus ∧
  ∀ s : State, s.cfg.legal = true →
    Stat.seqErr s.stat = false ∧
    exec .seqStatus s = .next { s with resp := .status (if Stat.seqNst s.stat = false then 0#1 else 1#1) }

/-! Main loop. -/

/-- R241, R253: the comparator commands back, forward or stop, and stop exactly on equality. -/
def Obligations.ComparatorStopsExactlyOnEquality : Prop :=
  ∀ pv ft : Word,
    (ft.toNat < pv.toNat → (focusCmp pv ft).code = 2#2) ∧ (pv.toNat < ft.toNat → (focusCmp pv ft).code = 1#2) ∧
    ((focusCmp pv ft).code = 0#2 ↔ pv = ft)

/-- R242. -/
def Obligations.MainStartTakesEffectOnce : Prop :=
  decode 0x0400000000#40 = .ok .mainStart ∧
  ∀ s : State, s.cfg.legal = true → ∃ t, exec .mainStart s = .next t ∧ t.resp = .nothing ∧
    (Mainctl.mrun s.mainctl = false → Mainctl.mrun t.mainctl = true ∧ Mainctl.mpc t.mainctl = 0#4 ∧
      KeepsBits [0, 4, 5, 6, 7] s.mainctl t.mainctl ∧ KeepsAllBut [.mainctl] s t) ∧
    (Mainctl.mrun s.mainctl = true → t = { s with resp := .nothing })

/-- R243: the guard of MAIN_STEP, a step for every micro-step 0..10, and a refusal for 11..15. -/
def Obligations.MainStepIsGuardedAndSelectedByMpc : Prop :=
  decode 0x3800000000#40 = .ok .mainStep ∧
  ∀ s : State, s.cfg.legal = true →
    (¬ (Mainctl.mrun s.mainctl = true ∧ Busctl.bwait s.busctl = false) →
      exec .mainStep s = .refused (.notEnabled .mainStep)) ∧
    (Mainctl.mrun s.mainctl = true ∧ Busctl.bwait s.busctl = false →
      ((Mainctl.mpc s.mainctl).toNat ≤ 10 → ∃ t, exec .mainStep s = .next t ∧ t.resp = .nothing) ∧
      (11 ≤ (Mainctl.mpc s.mainctl).toNat → exec .mainStep s = .refused (.reservedMicroStep (Mainctl.mpc s.mainctl))))

/-- R244, R245: M0 latches the scaled position, M1 the focus target. -/
def Obligations.MainLoopLatchesPositionAndFocusTarget : Prop :=
  ∀ s : State, s.cfg.legal = true → Mainctl.mrun s.mainctl = true → Busctl.bwait s.busctl = false →
    (Mainctl.mpc s.mainctl = 0#4 → ∃ t, exec .mainStep s = .next t ∧ t.resp = .nothing ∧
      t.pv.toNat = (s.smp0.toNat &&& (2 ^ s.cfg.sampleBits - 1)) / s.cfg.scale ∧ Mainctl.mpc t.mainctl = 1#4 ∧
      KeepsBits [4, 5, 6, 7] s.mainctl t.mainctl ∧ KeepsAllBut [.pv, .mainctl] s t) ∧
    (Mainctl.mpc s.mainctl = 1#4 → ∃ t, exec .mainStep s = .next t ∧ t.resp = .nothing ∧ t.ftl = s.ft ∧
      Mainctl.mpc t.mainctl = 2#4 ∧ KeepsBits [4, 5, 6, 7] s.mainctl t.mainctl ∧ KeepsAllBut [.ftl, .mainctl] s t)

/-- R246, R248: M2 and M4 latch the two status gates and have no side effect on STAT. -/
def Obligations.MainLoopLatchesTheStatusGates : Prop :=
  ∀ s : State, s.cfg.legal = true → Mainctl.mrun s.mainctl = true → Busctl.bwait s.busctl = false →
    (Mainctl.mpc s.mainctl = 2#4 → ∃ t, exec .mainStep s = .next t ∧ t.resp = .nothing ∧
      (Mainctl.g t.mainctl = true ↔ Stat.smpNst s.stat = false ∧ Stat.smpErr s.stat = false) ∧
      Mainctl.mpc t.mainctl = 3#4 ∧ KeepsBits [1, 4, 5, 6, 7] s.mainctl t.mainctl ∧ KeepsAllBut [.mainctl] s t) ∧
    (Mainctl.mpc s.mainctl = 4#4 → ∃ t, exec .mainStep s = .next t ∧ t.resp = .nothing ∧
      (Mainctl.g t.mainctl = true ↔ Stat.seqNst s.stat = false ∧ Stat.seqErr s.stat = false) ∧
      Mainctl.mpc t.mainctl = 5#4 ∧ KeepsBits [1, 4, 5, 6, 7] s.mainctl t.mainctl ∧ KeepsAllBut [.mainctl] s t)

/-- R247: M3 drives the focus axis with the comparison of the latched values, or keeps the output behind a closed gate. -/
def Obligations.MainLoopDrivesFocusAxisBehindOpenGate : Prop :=
  ∀ s : State, s.cfg.legal = true → Mainctl.mrun s.mainctl = true → Busctl.bwait s.busctl = false →
    Mainctl.mpc s.mainctl = 3#4 → ∃ t, exec .mainStep s = .next t ∧ t.resp = .nothing ∧ Mainctl.mpc t.mainctl = 4#4 ∧
      (Mainctl.g s.mainctl = true → Out.foc t.out =
        (if s.ftl.toNat < s.pv.toNat then 2#2 else if s.pv.toNat < s.ftl.toNat then 1#2 else 0#2)) ∧
      (Mainctl.g s.mainctl = false → t.out = s.out) ∧
      KeepsBits [0, 1] s.out t.out ∧ KeepsBits [4, 5, 6, 7] s.mainctl t.mainctl ∧ KeepsAllBut [.out, .mainctl] s t

/-- R249: M5 latches the rotary target behind an open gate, else ends the iteration. -/
def Obligations.MainLoopLatchesRotaryTargetBehindOpenGate : Prop :=
  ∀ s : State, s.cfg.legal = true → Mainctl.mrun s.mainctl = true → Busctl.bwait s.busctl = false →
    Mainctl.mpc s.mainctl = 5#4 → ∃ t, exec .mainStep s = .next t ∧ t.resp = .nothing ∧ KeepsAllBut [.mainctl] s t ∧
      (Mainctl.g s.mainctl = true → Mainctl.tgt t.mainctl = s.rt.extractLsb' 0 2 ∧ Mainctl.mpc t.mainctl = 6#4 ∧
        KeepsBits [4, 5, 6, 7, 8, 9] s.mainctl t.mainctl) ∧
      (Mainctl.g s.mainctl = false → Mainctl.mpc t.mainctl = 0#4 ∧ KeepsBits [4, 5, 6, 7] s.mainctl t.mainctl)

/-- R231, R232: SP1 compares, SP2 disarms and resets the settle timer and keeps an elapsed event. -/
def Obligations.SetPhaseComparesAndDisarms : Prop :=
  ∀ s : State, s.cfg.legal = true → Mainctl.mrun s.mainctl = true → Busctl.bwait s.busctl = false →
    (Mainctl.mpc s.mainctl = 6#4 → ∃ t, exec .mainStep s = .next t ∧ t.resp = .nothing ∧
      Mainctl.mpc t.mainctl = (if Mainctl.tgt s.mainctl = Seqctl.cp s.seqctl then 0#4 else 7#4) ∧
      KeepsBits [4, 5, 6, 7] s.mainctl t.mainctl ∧ KeepsAllBut [.mainctl] s t) ∧
    (Mainctl.mpc s.mainctl = 7#4 → ∃ t, exec .mainStep s = .next t ∧ t.resp = .nothing ∧
      Seqctl.sten t.seqctl = false ∧ t.stcnt = 0 ∧ Mainctl.mpc t.mainctl = 8#4 ∧
      Seqctl.stelapsed t.seqctl = Seqctl.stelapsed s.seqctl ∧ KeepsBits [4] s.seqctl t.seqctl ∧
      KeepsBits [4, 5, 6, 7] s.mainctl t.mainctl ∧ KeepsAllBut [.seqctl, .stcnt, .mainctl] s t)

/-- R200, R233: SP3 drives the pair of the direction table's row; in a state of the invariant there is always a row. -/
def Obligations.SetPhaseDrivesTheTableRow : Prop :=
  (∀ s : State, ControlInv s → Mainctl.mpc s.mainctl = 8#4 → Seqctl.cp s.seqctl ≠ Mainctl.tgt s.mainctl ∧
    (Seqctl.cp s.seqctl).toNat ≤ 2 ∧ (Mainctl.tgt s.mainctl).toNat ≤ 2) ∧
  ∀ s : State, s.cfg.legal = true → Mainctl.mrun s.mainctl = true → Busctl.bwait s.busctl = false →
    Mainctl.mpc s.mainctl = 8#4 → Seqctl.cp s.seqctl ≠ Mainctl.tgt s.mainctl → (Seqctl.cp s.seqctl).toNat ≤ 2 →
    (Mainctl.tgt s.mainctl).toNat ≤ 2 → ∃ t, exec .mainStep s = .next t ∧ t.resp = .nothing ∧
      (Seqctl.cp s.seqctl = 1#2 ∧ Mainctl.tgt s.mainctl = 2#2 → Out.axa t.out = 2#2 ∧ Out.axb t.out = 1#2) ∧
      (Seqctl.cp s.seqctl = 2#2 ∧ Mainctl.tgt s.mainctl = 1#2 → Out.axa t.out = 1#2 ∧ Out.axb t.out = 2#2) ∧
      (Seqctl.cp s.seqctl = 1#2 ∧ Mainctl.tgt s.mainctl = 0#2 → Out.axa t.out = 2#2 ∧ Out.axb t.out = 0#2) ∧
      (Seqctl.cp s.seqctl = 2#2 ∧ Mainctl.tgt s.mainctl = 0#2 → Out.axa t.out = 0#2 ∧ Out.axb t.out = 2#2) ∧
      (Seqctl.cp s.seqctl = 0#2 ∧ Mainctl.tgt s.mainctl = 1#2 → Out.axa t.out = 1#2 ∧ Out.axb t.out = 0#2) ∧
      (Seqctl.cp s.seqctl = 0#2 ∧ Mainctl.tgt s.mainctl = 2#2 → Out.axa t.out = 0#2 ∧ Out.axb t.out = 1#2) ∧
      Mainctl.mpc t.mainctl = 9#4 ∧ KeepsBits [2, 3, 4, 5] s.out t.out ∧
      KeepsBits [4, 5, 6, 7] s.mainctl t.mainctl ∧ KeepsAllBut [.out, .mainctl] s t

/-- R234, R235: SP4 commits the phase, SP5 re-arms the settle timer, whose count is 0 in a state of the invariant. -/
def Obligations.SetPhaseCommitsAndRearms : Prop :=
  ∀ s : State, s.cfg.legal = true → Mainctl.mrun s.mainctl = true → Busctl.bwait s.busctl = false →
    (Mainctl.mpc s.mainctl = 9#4 → ∃ t, exec .mainStep s = .next t ∧ t.resp = .nothing ∧
      Seqctl.cp t.seqctl = Mainctl.tgt s.mainctl ∧ Seqctl.tip t.seqctl = true ∧ Mainctl.mpc t.mainctl = 10#4 ∧
      KeepsBits [0, 1, 2] s.seqctl t.seqctl ∧ KeepsBits [4, 5, 6, 7] s.mainctl t.mainctl ∧
      KeepsAllBut [.seqctl, .mainctl] s t) ∧
    (Mainctl.mpc s.mainctl = 10#4 → ∃ t, exec .mainStep s = .next t ∧ t.resp = .nothing ∧
      Seqctl.sten t.seqctl = true ∧ Mainctl.mpc t.mainctl = 0#4 ∧ (ControlInv s → t.stcnt = 0#32) ∧
      KeepsBits [4] s.seqctl t.seqctl ∧ KeepsBits [4, 5, 6, 7] s.mainctl t.mainctl ∧ KeepsAllBut [.seqctl, .mainctl] s t)

/-- R237: the net effect of an uninterrupted setPhase to a different phase. -/
def Obligations.UninterruptedSetPhaseNetEffect : Prop :=
  ∀ s : State, s.cfg.legal = true → Mainctl.mrun s.mainctl = true → Busctl.bwait s.busctl = false →
    Mainctl.mpc s.mainctl = 6#4 → Seqctl.cp s.seqctl ≠ Mainctl.tgt s.mainctl → Seqctl.cp s.seqctl ≠ 3#2 →
    Mainctl.tgt s.mainctl ≠ 3#2 →
    ∃ t p q d, execAll (List.replicate 5 .mainStep) s = .next t ∧
      p.code = Seqctl.cp s.seqctl ∧ q.code = Mainctl.tgt s.mainctl ∧ dirTable p q = some d ∧
      Out.axa t.out = d.1.code ∧ Out.axb t.out = d.2.code ∧ Seqctl.cp t.seqctl = Mainctl.tgt s.mainctl ∧
      Seqctl.tip t.seqctl = true ∧ Seqctl.sten t.seqctl = true ∧ t.stcnt = 0 ∧ Mainctl.mpc t.mainctl = 0#4 ∧
      Seqctl.stelapsed t.seqctl = Seqctl.stelapsed s.seqctl ∧ Out.foc t.out = Out.foc s.out ∧
      KeepsAllBut [.out, .seqctl, .stcnt, .mainctl] s t

/-- R250, R251: the length of an iteration, that it ends at M0, and that only the sampler gate decides the focus command
and only the sequencer gate the setPhase. -/
def Obligations.IterationLengthAndIndependentGates : Prop :=
  ∀ s : State, s.cfg.legal = true → Mainctl.mrun s.mainctl = true → Busctl.bwait s.busctl = false →
    Mainctl.mpc s.mainctl = 0#4 →
    iterLength 11 s = (if Stat.seqNst s.stat = true then 6 else if s.rt.extractLsb' 0 2 = Seqctl.cp s.seqctl then 7 else 11) ∧
    ∃ t, execAll (Pseudo.expand .iter s) s = .next t ∧ Mainctl.mpc t.mainctl = 0#4 ∧
      (Stat.smpNst s.stat = false ∧ Stat.smpErr s.stat = false → Out.foc t.out = (focusCmp (scale s.cfg s.smp0) s.ft).code) ∧
      (Stat.smpNst s.stat = true ∨ Stat.smpErr s.stat = true → Out.foc t.out = Out.foc s.out) ∧
      (Stat.seqNst s.stat = true → t.seqctl = s.seqctl ∧ Out.axa t.out = Out.axa s.out ∧ Out.axb t.out = Out.axb s.out) ∧
      (Stat.seqNst s.stat = false → Seqctl.cp t.seqctl = s.rt.extractLsb' 0 2)

/-- R280, R38: the main loop's state is written by no handler, no hardware agent and no host operation but MAIN_START and
RESET. -/
def Obligations.MainLoopStateSurvivesEveryOtherAgent : Prop :=
  ∀ (i : Instr) (s t : State), exec i s = .next t → i.agent ≠ .mainLoop → i ≠ .mainStart → i ≠ .reset →
    t.mainctl = s.mainctl ∧ t.pv = s.pv ∧ t.ftl = s.ftl

/-- R313: an elapsed event pending across SP3 and taken after it (before SP4, before SP5 or after SP5) idles the axes; CP
still becomes the target, STEN ends at 1, and TIP ends at 1 only if SP4 comes after the handler. -/
def Obligations.PendingElapsedEventCutsNewMotionShort : Prop :=
  ∀ s : State, s.cfg.legal = true → Mainctl.mrun s.mainctl = true → Busctl.bwait s.busctl = false →
    Mainctl.mpc s.mainctl = 9#4 → Seqctl.stelapsed s.seqctl = true →
    ∀ run tip, (run, tip) ∈ [([Instr.isrSeq, .mainStep, .mainStep], true), ([.mainStep, .isrSeq, .mainStep], false),
        ([.mainStep, .mainStep, .isrSeq], false)] →
      ∃ t, execAll run s = .next t ∧ Out.axa t.out = 0#2 ∧ Out.axb t.out = 0#2 ∧
        Seqctl.cp t.seqctl = Mainctl.tgt s.mainctl ∧ Seqctl.tip t.seqctl = tip ∧ Seqctl.sten t.seqctl = true ∧
        Seqctl.stelapsed t.seqctl = false ∧ Mainctl.mpc t.mainctl = 0#4

/-! Invariants and whole-machine claims. -/

/-- Power-on reset gives a safe state in every legal configuration (R40, R41). -/
def Obligations.PowerOnStateIsSafe : Prop :=
  ∀ (cfg : Params) (draws : Nat), cfg.legal = true → SafeState (State.powerOn cfg draws)

/-- R22, R26: every step keeps the reserved and the hardwired bits 0. -/
def Obligations.EveryStepKeepsReservedBitsClear : Prop :=
  ∀ s t : State, ReservedClear s → step s = .next t → ReservedClear t

/-- R41: every step keeps the sampler's values legal. -/
def Obligations.EveryStepKeepsSamplerInvariant : Prop :=
  ∀ s t : State, SamplerInv s → step s = .next t → SamplerInv t

/-- R41: every step keeps the sequencer's, the main loop's and the outputs' values legal. -/
def Obligations.EveryStepKeepsControlInvariant : Prop :=
  ∀ s t : State, ControlInv s → step s = .next t → ControlInv t

/-- R41: every step keeps the latched values and the bus port legal. -/
def Obligations.EveryStepKeepsPortInvariant : Prop :=
  ∀ s t : State, PortInv s → step s = .next t → PortInv t

/-- R303: the focus axis is not driven before the first successful completion. -/
def Obligations.EveryStepHoldsFocusUntilFirstSample : Prop :=
  ∀ s t : State, FocusHeldUntilFirstSample s → step s = .next t → FocusHeldUntilFirstSample t

/-- R41 as written, of every reachable state. -/
def Obligations.ReachableStatesHaveLegalValues : Prop :=
  ∀ s : State, Reachable s →
    s.ft.toNat ≤ s.cfg.focusMax ∧ (s.rt.extractLsb' 0 2).toNat ≤ 2 ∧ (Seqctl.cp s.seqctl).toNat ≤ 2 ∧
    (Mainctl.tgt s.mainctl).toNat ≤ 2 ∧ (Out.foc s.out).toNat ≤ 2 ∧ (Out.axa s.out).toNat ≤ 2 ∧
    (Out.axb s.out).toNat ≤ 2 ∧ (Smpctl.sst s.smpctl).toNat ≤ 2 ∧ (Smpctl.wix s.smpctl).toNat ≤ 2 ∧
    (Mainctl.mpc s.mainctl).toNat ≤ 10 ∧ s.trgcnt.toNat < s.cfg.samplePeriod ∧ s.stcnt.toNat ≤ s.cfg.settleTicks ∧
    (∀ k, k ≠ 3 → k ≠ 4 → k ≠ 5 → k ≠ 8 → s.stat.getLsbD k = false) ∧
    (Busctl.bwait s.busctl = true → Busctl.txv s.busctl = true) ∧
    (Smpctl.first s.smpctl = false → Stat.smpNst s.stat = true) ∧
    (Smpctl.first s.smpctl = true → Stat.smpNst s.stat = false) ∧
    (Seqctl.started s.seqctl = false → Stat.seqNst s.stat = true)

/-- R305, in the model's reading (log 13): in a safe state no agent has an enabled step exactly when both timers are stopped and
the core has nothing to run or is waiting, and never once boot is complete; the quiescent states are the listed ones and no
other, and where no handler waits and SEQ_START has not come before SAMPLER_INIT (R302) these are all the states in which no
agent has an enabled step. Once SAMPLER_INIT has been given the sampling timer has a step, waiting or not, and once MAIN_START
has, the main loop has one unless a handler waits. -/
def Obligations.QuiescentStatesAreTheStoppedOnes : Prop :=
  ∀ s : State, SafeState s →
    (AgentsStopped s ↔ Smpctl.sst s.smpctl = 0#2 ∧ Seqctl.sten s.seqctl = false ∧
      (Busctl.bwait s.busctl = true ∨
        (Seqctl.stelapsed s.seqctl = false ∧ Busctl.mfull s.busctl = false ∧ Mainctl.mrun s.mainctl = false))) ∧
    (AgentsStopped s → ¬ BootComplete s) ∧
    (Quiescent s ↔ Smpctl.sst s.smpctl = 0#2 ∧ Seqctl.started s.seqctl = false ∧ Mainctl.mrun s.mainctl = false ∧
      Busctl.mfull s.busctl = false ∧ Busctl.bwait s.busctl = false) ∧
    (Busctl.bwait s.busctl = false → (Smpctl.sst s.smpctl = 0#2 → Seqctl.started s.seqctl = false) →
      (AgentsStopped s ↔ Quiescent s)) ∧
    (Smpctl.sst s.smpctl ≠ 0#2 → AgentEnabled .samplingTimer s) ∧
    (Mainctl.mrun s.mainctl = true → Busctl.bwait s.busctl = false → AgentEnabled .mainLoop s)

/-- R271, R290: in a weakly fair execution a pending line is served, if until it is served no handler becomes active, which
only a Status-request's wait does (R178, R179), and no RESET happens. -/
def Obligations.PendingHandlerIsEventuallyTaken : Prop :=
  ∀ (st : Nat → State) (ev : Nat → Instr) (l : IrqLine) (n : Nat), IsExecution st ev → WeaklyFair st ev →
    pending l (st n) = true →
    (∀ m, n ≤ m → handlerActive (st m) = true ∨ ev m = .reset → ∃ k, n ≤ k ∧ k < m ∧ (ev k).agent = handlerAgent l) →
    ∃ m, n ≤ m ∧ (ev m).agent = handlerAgent l
end

