-- ==== Sys2Proof/Laws/Decode.lean ====
section
/-! SUPPORT. The fields of an event word and of its operand: what the encoder puts where (30_encoding.md R90, R93). -/

namespace Sys2Proof

theorem opOf_eventWord (op : OpCode) (opd : Word) : opOf (eventWord op opd) = op := by
  apply BitVec.eq_of_getLsbD_eq
  intro i hi
  have e : ¬ 32 + i < 32 := by omega
  simp only [opOf, eventWord, BitVec.getLsbD_extractLsb', BitVec.getLsbD_append, hi, e, decide_true, Bool.true_and,
    if_false, Nat.add_sub_cancel_left]

theorem opdOf_eventWord (op : OpCode) (opd : Word) : opdOf (eventWord op opd) = opd := by
  apply BitVec.eq_of_getLsbD_eq
  intro i hi
  simp only [opdOf, eventWord, BitVec.getLsbD_extractLsb', BitVec.getLsbD_append, hi, decide_true, Bool.true_and,
    Nat.zero_add, if_true]

/-- An event word is its two fields (R90). -/
theorem eventWord_opOf_opdOf (w : EventWord) : eventWord (opOf w) (opdOf w) = w := by
  apply BitVec.eq_of_getLsbD_eq
  intro i hi
  simp only [opOf, opdOf, eventWord, BitVec.getLsbD_extractLsb', BitVec.getLsbD_append]
  by_cases h : i < 32
  · simp [h]
  · have h8 : i - 32 < 8 := by omega
    simp only [h, h8, if_false, decide_true, Bool.true_and]
    rw [show 32 + (i - 32) = i by omega]

theorem decode_eventWord (op : OpCode) (opd : Word) : decode (eventWord op opd) = decodeFields op.toNat opd := by
  rw [decode, opOf_eventWord, opdOf_eventWord]

theorem opOf_encode (i : Instr) : opOf (encode i) = i.op := opOf_eventWord _ _

theorem opdOf_encode (i : Instr) : opdOf (encode i) = i.opd := opdOf_eventWord _ _

theorem withReservedBits_ok_iff (opd fields : Word) (i j : Instr) :
    withReservedBits opd fields i = .ok j ↔ opd &&& ~~~fields = 0#32 ∧ j = i := by
  unfold withReservedBits
  split <;> rename_i h <;> simp [h, eq_comm]

theorem getLsbD_bitAt (i : Nat) (b : Bool) (j : Nat) (hj : j < 32) : (bitAt i b).getLsbD j = (decide (j = i) && b) := by
  simp only [bitAt, BitVec.getLsbD_shiftLeft, BitVec.getLsbD_setWidth, BitVec.getLsbD_ofBool]
  by_cases h : j = i
  · subst h
    simp [hj]
  · have : j < i ∨ j - i ≠ 0 := by omega
    rcases this with h' | h' <;> simp [h, h']

/-- The bits of CONV's operand: the converted word, then the error and the overrun (R93). -/
theorem getLsbD_opd_conv (v : SampleWord) (e o : Bool) (j : Nat) (hj : j < 32) :
    (Instr.opd (.conv v e o)).getLsbD j =
      if j < 16 then v.getLsbD j else if j = 16 then e else if j = 17 then o else false := by
  simp only [Instr.opd, BitVec.getLsbD_or, getLsbD_bitAt _ _ _ hj, BitVec.getLsbD_setWidth]
  by_cases h : j < 16
  · have h1 : j ≠ 16 := by omega
    have h2 : j ≠ 17 := by omega
    simp [h, h1, h2, hj]
  · have h1 : v.getLsbD j = false := BitVec.getLsbD_of_ge _ _ (by omega)
    by_cases h2 : j = 16
    · subst h2
      simp
    · by_cases h3 : j = 17
      · subst h3
        simp
      · simp [h, h1, h2, h3]

/-- A word with no bit outside the lowest `n` has every bit from `n` on clear. -/
theorem getLsbD_of_and_not_mask (x : Word) (n : Nat) (h : x &&& ~~~(BitVec.ofNat 32 (2 ^ n - 1)) = 0#32) (j : Nat)
    (hj : n ≤ j) (h32 : j < 32) : x.getLsbD j = false := by
  have hb := congrArg (fun y => BitVec.getLsbD y j) h
  have k : (BitVec.ofNat 32 (2 ^ n - 1)).getLsbD j = false := by
    rw [BitVec.getLsbD_ofNat, Nat.testBit_two_pow_sub_one]
    simp
    omega
  simp only [BitVec.getLsbD_and, BitVec.getLsbD_not, k] at hb
  simpa [h32] using hb

end Sys2Proof
end

