-- ==== Sys2Proof/Laws/Fields.lean ====
section
/-! SUPPORT. The laws of the register fields: a field reads what was last written to it, and a write of one field leaves
every other field and every reserved bit of the register alone (20_memory.md R74). -/

namespace Sys2Proof.Machine

/-- Bit `i` after a field write: the field's bit inside the field, the old bit outside. -/
theorem getLsbD_setField {len : Nat} (lo : Nat) (v : BitVec len) (w : Word) (i : Nat) :
    (setField lo v w).getLsbD i = if lo ≤ i ∧ i < lo + len ∧ i < 32 then v.getLsbD (i - lo) else w.getLsbD i := by
  simp only [setField, BitVec.getLsbD_or, BitVec.getLsbD_and, BitVec.getLsbD_not, BitVec.getLsbD_shiftLeft,
    BitVec.getLsbD_setWidth, BitVec.getLsbD_allOnes]
  by_cases h1 : i < 32
  · by_cases h2 : lo ≤ i
    · by_cases h3 : i < lo + len
      · have h4 : i - lo < len := by omega
        have h5 : ¬ i < lo := by omega
        have h6 : i - lo < 32 := by omega
        simp [h1, h2, h3, h4, h5, h6]
      · have h4 : ¬ i - lo < len := by omega
        have h5 : v.getLsbD (i - lo) = false := BitVec.getLsbD_of_ge _ _ (by omega)
        simp [h1, h2, h3, h4, h5]
    · have h4 : i < lo := by omega
      simp [h1, h2, h4]
  · have h4 : w.getLsbD i = false := BitVec.getLsbD_of_ge _ _ (by omega)
    simp [h1, h4]

theorem getField_setField_same {len : Nat} (lo : Nat) (v : BitVec len) (w : Word) (h : lo + len ≤ 32) :
    getField lo len (setField lo v w) = v := by
  apply BitVec.eq_of_getLsbD_eq
  intro i hi
  simp only [getField, BitVec.getLsbD_extractLsb', getLsbD_setField, hi, decide_true, Bool.true_and]
  rw [if_pos (by omega), Nat.add_sub_cancel_left]

theorem getField_setField_disjoint {len : Nat} (lo : Nat) (v : BitVec len) (lo' len' : Nat) (w : Word)
    (h : lo + len ≤ lo' ∨ lo' + len' ≤ lo) : getField lo' len' (setField lo v w) = getField lo' len' w := by
  apply BitVec.eq_of_getLsbD_eq
  intro i hi
  have h1 : ¬ (lo ≤ lo' + i ∧ lo' + i < lo + len ∧ lo' + i < 32) := by omega
  simp only [getField, BitVec.getLsbD_extractLsb', getLsbD_setField, hi, h1, decide_true, Bool.true_and, if_false]

theorem getBit_setField_disjoint {len : Nat} (lo : Nat) (v : BitVec len) (i : Nat) (w : Word)
    (h : lo + len ≤ i ∨ i < lo) : getBit i (setField lo v w) = getBit i w := by
  have h1 : ¬ (lo ≤ i ∧ i < lo + len ∧ i < 32) := by omega
  simp only [getBit, getLsbD_setField, h1, if_false]

theorem getBit_setBit_same (i : Nat) (b : Bool) (w : Word) (h : i < 32) : getBit i (setBit i b w) = b := by
  simp only [getBit, setBit, getLsbD_setField]
  rw [if_pos (by omega), Nat.sub_self]
  cases b <;> rfl

theorem getBit_setBit_ne (i j : Nat) (b : Bool) (w : Word) (h : i ≠ j) : getBit j (setBit i b w) = getBit j w :=
  getBit_setField_disjoint i _ j w (by omega)

theorem getField_setBit_disjoint (i : Nat) (b : Bool) (lo len : Nat) (w : Word) (h : i < lo ∨ lo + len ≤ i) :
    getField lo len (setBit i b w) = getField lo len w :=
  getField_setField_disjoint i _ lo len w (by omega)

/-! The fields of SMPCTL (R29): one law per write. -/

@[simp] theorem Smpctl.setSst_fields (v : BitVec 2) (w : Word) :
    Smpctl.sst (Smpctl.setSst v w) = v ∧
    Smpctl.wix (Smpctl.setSst v w) = Smpctl.wix w ∧
    Smpctl.busy (Smpctl.setSst v w) = Smpctl.busy w ∧
    Smpctl.first (Smpctl.setSst v w) = Smpctl.first w ∧
    Smpctl.aerr (Smpctl.setSst v w) = Smpctl.aerr w ∧
    Smpctl.aovr (Smpctl.setSst v w) = Smpctl.aovr w ∧
    Smpctl.cpend (Smpctl.setSst v w) = Smpctl.cpend w ∧
    Smpctl.cerr (Smpctl.setSst v w) = Smpctl.cerr w ∧
    Smpctl.covr (Smpctl.setSst v w) = Smpctl.covr w ∧
    getField 11 21 (Smpctl.setSst v w) = getField 11 21 w :=
  ⟨getField_setField_same _ _ _ (by decide),
   getField_setField_disjoint _ _ _ _ _ (by decide),
   getBit_setField_disjoint _ _ _ _ (by decide),
   getBit_setField_disjoint _ _ _ _ (by decide),
   getBit_setField_disjoint _ _ _ _ (by decide),
   getBit_setField_disjoint _ _ _ _ (by decide),
   getBit_setField_disjoint _ _ _ _ (by decide),
   getBit_setField_disjoint _ _ _ _ (by decide),
   getBit_setField_disjoint _ _ _ _ (by decide),
   getField_setField_disjoint _ _ _ _ _ (by decide)⟩

@[simp] theorem Smpctl.setWix_fields (v : BitVec 2) (w : Word) :
    Smpctl.sst (Smpctl.setWix v w) = Smpctl.sst w ∧
    Smpctl.wix (Smpctl.setWix v w) = v ∧
    Smpctl.busy (Smpctl.setWix v w) = Smpctl.busy w ∧
    Smpctl.first (Smpctl.setWix v w) = Smpctl.first w ∧
    Smpctl.aerr (Smpctl.setWix v w) = Smpctl.aerr w ∧
    Smpctl.aovr (Smpctl.setWix v w) = Smpctl.aovr w ∧
    Smpctl.cpend (Smpctl.setWix v w) = Smpctl.cpend w ∧
    Smpctl.cerr (Smpctl.setWix v w) = Smpctl.cerr w ∧
    Smpctl.covr (Smpctl.setWix v w) = Smpctl.covr w ∧
    getField 11 21 (Smpctl.setWix v w) = getField 11 21 w :=
  ⟨getField_setField_disjoint _ _ _ _ _ (by decide),
   getField_setField_same _ _ _ (by decide),
   getBit_setField_disjoint _ _ _ _ (by decide),
   getBit_setField_disjoint _ _ _ _ (by decide),
   getBit_setField_disjoint _ _ _ _ (by decide),
   getBit_setField_disjoint _ _ _ _ (by decide),
   getBit_setField_disjoint _ _ _ _ (by decide),
   getBit_setField_disjoint _ _ _ _ (by decide),
   getBit_setField_disjoint _ _ _ _ (by decide),
   getField_setField_disjoint _ _ _ _ _ (by decide)⟩

@[simp] theorem Smpctl.setBusy_fields (v : Bool) (w : Word) :
    Smpctl.sst (Smpctl.setBusy v w) = Smpctl.sst w ∧
    Smpctl.wix (Smpctl.setBusy v w) = Smpctl.wix w ∧
    Smpctl.busy (Smpctl.setBusy v w) = v ∧
    Smpctl.first (Smpctl.setBusy v w) = Smpctl.first w ∧
    Smpctl.aerr (Smpctl.setBusy v w) = Smpctl.aerr w ∧
    Smpctl.aovr (Smpctl.setBusy v w) = Smpctl.aovr w ∧
    Smpctl.cpend (Smpctl.setBusy v w) = Smpctl.cpend w ∧
    Smpctl.cerr (Smpctl.setBusy v w) = Smpctl.cerr w ∧
    Smpctl.covr (Smpctl.setBusy v w) = Smpctl.covr w ∧
    getField 11 21 (Smpctl.setBusy v w) = getField 11 21 w :=
  ⟨getField_setBit_disjoint _ _ _ _ _ (by decide),
   getField_setBit_disjoint _ _ _ _ _ (by decide),
   getBit_setBit_same _ _ _ (by decide),
   getBit_setBit_ne _ _ _ _ (by decide),
   getBit_setBit_ne _ _ _ _ (by decide),
   getBit_setBit_ne _ _ _ _ (by decide),
   getBit_setBit_ne _ _ _ _ (by decide),
   getBit_setBit_ne _ _ _ _ (by decide),
   getBit_setBit_ne _ _ _ _ (by decide),
   getField_setBit_disjoint _ _ _ _ _ (by decide)⟩

@[simp] theorem Smpctl.setFirst_fields (v : Bool) (w : Word) :
    Smpctl.sst (Smpctl.setFirst v w) = Smpctl.sst w ∧
    Smpctl.wix (Smpctl.setFirst v w) = Smpctl.wix w ∧
    Smpctl.busy (Smpctl.setFirst v w) = Smpctl.busy w ∧
    Smpctl.first (Smpctl.setFirst v w) = v ∧
    Smpctl.aerr (Smpctl.setFirst v w) = Smpctl.aerr w ∧
    Smpctl.aovr (Smpctl.setFirst v w) = Smpctl.aovr w ∧
    Smpctl.cpend (Smpctl.setFirst v w) = Smpctl.cpend w ∧
    Smpctl.cerr (Smpctl.setFirst v w) = Smpctl.cerr w ∧
    Smpctl.covr (Smpctl.setFirst v w) = Smpctl.covr w ∧
    getField 11 21 (Smpctl.setFirst v w) = getField 11 21 w :=
  ⟨getField_setBit_disjoint _ _ _ _ _ (by decide),
   getField_setBit_disjoint _ _ _ _ _ (by decide),
   getBit_setBit_ne _ _ _ _ (by decide),
   getBit_setBit_same _ _ _ (by decide),
   getBit_setBit_ne _ _ _ _ (by decide),
   getBit_setBit_ne _ _ _ _ (by decide),
   getBit_setBit_ne _ _ _ _ (by decide),
   getBit_setBit_ne _ _ _ _ (by decide),
   getBit_setBit_ne _ _ _ _ (by decide),
   getField_setBit_disjoint _ _ _ _ _ (by decide)⟩

@[simp] theorem Smpctl.setAerr_fields (v : Bool) (w : Word) :
    Smpctl.sst (Smpctl.setAerr v w) = Smpctl.sst w ∧
    Smpctl.wix (Smpctl.setAerr v w) = Smpctl.wix w ∧
    Smpctl.busy (Smpctl.setAerr v w) = Smpctl.busy w ∧
    Smpctl.first (Smpctl.setAerr v w) = Smpctl.first w ∧
    Smpctl.aerr (Smpctl.setAerr v w) = v ∧
    Smpctl.aovr (Smpctl.setAerr v w) = Smpctl.aovr w ∧
    Smpctl.cpend (Smpctl.setAerr v w) = Smpctl.cpend w ∧
    Smpctl.cerr (Smpctl.setAerr v w) = Smpctl.cerr w ∧
    Smpctl.covr (Smpctl.setAerr v w) = Smpctl.covr w ∧
    getField 11 21 (Smpctl.setAerr v w) = getField 11 21 w :=
  ⟨getField_setBit_disjoint _ _ _ _ _ (by decide),
   getField_setBit_disjoint _ _ _ _ _ (by decide),
   getBit_setBit_ne _ _ _ _ (by decide),
   getBit_setBit_ne _ _ _ _ (by decide),
   getBit_setBit_same _ _ _ (by decide),
   getBit_setBit_ne _ _ _ _ (by decide),
   getBit_setBit_ne _ _ _ _ (by decide),
   getBit_setBit_ne _ _ _ _ (by decide),
   getBit_setBit_ne _ _ _ _ (by decide),
   getField_setBit_disjoint _ _ _ _ _ (by decide)⟩

@[simp] theorem Smpctl.setAovr_fields (v : Bool) (w : Word) :
    Smpctl.sst (Smpctl.setAovr v w) = Smpctl.sst w ∧
    Smpctl.wix (Smpctl.setAovr v w) = Smpctl.wix w ∧
    Smpctl.busy (Smpctl.setAovr v w) = Smpctl.busy w ∧
    Smpctl.first (Smpctl.setAovr v w) = Smpctl.first w ∧
    Smpctl.aerr (Smpctl.setAovr v w) = Smpctl.aerr w ∧
    Smpctl.aovr (Smpctl.setAovr v w) = v ∧
    Smpctl.cpend (Smpctl.setAovr v w) = Smpctl.cpend w ∧
    Smpctl.cerr (Smpctl.setAovr v w) = Smpctl.cerr w ∧
    Smpctl.covr (Smpctl.setAovr v w) = Smpctl.covr w ∧
    getField 11 21 (Smpctl.setAovr v w) = getField 11 21 w :=
  ⟨getField_setBit_disjoint _ _ _ _ _ (by decide),
   getField_setBit_disjoint _ _ _ _ _ (by decide),
   getBit_setBit_ne _ _ _ _ (by decide),
   getBit_setBit_ne _ _ _ _ (by decide),
   getBit_setBit_ne _ _ _ _ (by decide),
   getBit_setBit_same _ _ _ (by decide),
   getBit_setBit_ne _ _ _ _ (by decide),
   getBit_setBit_ne _ _ _ _ (by decide),
   getBit_setBit_ne _ _ _ _ (by decide),
   getField_setBit_disjoint _ _ _ _ _ (by decide)⟩

@[simp] theorem Smpctl.setCpend_fields (v : Bool) (w : Word) :
    Smpctl.sst (Smpctl.setCpend v w) = Smpctl.sst w ∧
    Smpctl.wix (Smpctl.setCpend v w) = Smpctl.wix w ∧
    Smpctl.busy (Smpctl.setCpend v w) = Smpctl.busy w ∧
    Smpctl.first (Smpctl.setCpend v w) = Smpctl.first w ∧
    Smpctl.aerr (Smpctl.setCpend v w) = Smpctl.aerr w ∧
    Smpctl.aovr (Smpctl.setCpend v w) = Smpctl.aovr w ∧
    Smpctl.cpend (Smpctl.setCpend v w) = v ∧
    Smpctl.cerr (Smpctl.setCpend v w) = Smpctl.cerr w ∧
    Smpctl.covr (Smpctl.setCpend v w) = Smpctl.covr w ∧
    getField 11 21 (Smpctl.setCpend v w) = getField 11 21 w :=
  ⟨getField_setBit_disjoint _ _ _ _ _ (by decide),
   getField_setBit_disjoint _ _ _ _ _ (by decide),
   getBit_setBit_ne _ _ _ _ (by decide),
   getBit_setBit_ne _ _ _ _ (by decide),
   getBit_setBit_ne _ _ _ _ (by decide),
   getBit_setBit_ne _ _ _ _ (by decide),
   getBit_setBit_same _ _ _ (by decide),
   getBit_setBit_ne _ _ _ _ (by decide),
   getBit_setBit_ne _ _ _ _ (by decide),
   getField_setBit_disjoint _ _ _ _ _ (by decide)⟩

@[simp] theorem Smpctl.setCerr_fields (v : Bool) (w : Word) :
    Smpctl.sst (Smpctl.setCerr v w) = Smpctl.sst w ∧
    Smpctl.wix (Smpctl.setCerr v w) = Smpctl.wix w ∧
    Smpctl.busy (Smpctl.setCerr v w) = Smpctl.busy w ∧
    Smpctl.first (Smpctl.setCerr v w) = Smpctl.first w ∧
    Smpctl.aerr (Smpctl.setCerr v w) = Smpctl.aerr w ∧
    Smpctl.aovr (Smpctl.setCerr v w) = Smpctl.aovr w ∧
    Smpctl.cpend (Smpctl.setCerr v w) = Smpctl.cpend w ∧
    Smpctl.cerr (Smpctl.setCerr v w) = v ∧
    Smpctl.covr (Smpctl.setCerr v w) = Smpctl.covr w ∧
    getField 11 21 (Smpctl.setCerr v w) = getField 11 21 w :=
  ⟨getField_setBit_disjoint _ _ _ _ _ (by decide),
   getField_setBit_disjoint _ _ _ _ _ (by decide),
   getBit_setBit_ne _ _ _ _ (by decide),
   getBit_setBit_ne _ _ _ _ (by decide),
   getBit_setBit_ne _ _ _ _ (by decide),
   getBit_setBit_ne _ _ _ _ (by decide),
   getBit_setBit_ne _ _ _ _ (by decide),
   getBit_setBit_same _ _ _ (by decide),
   getBit_setBit_ne _ _ _ _ (by decide),
   getField_setBit_disjoint _ _ _ _ _ (by decide)⟩

@[simp] theorem Smpctl.setCovr_fields (v : Bool) (w : Word) :
    Smpctl.sst (Smpctl.setCovr v w) = Smpctl.sst w ∧
    Smpctl.wix (Smpctl.setCovr v w) = Smpctl.wix w ∧
    Smpctl.busy (Smpctl.setCovr v w) = Smpctl.busy w ∧
    Smpctl.first (Smpctl.setCovr v w) = Smpctl.first w ∧
    Smpctl.aerr (Smpctl.setCovr v w) = Smpctl.aerr w ∧
    Smpctl.aovr (Smpctl.setCovr v w) = Smpctl.aovr w ∧
    Smpctl.cpend (Smpctl.setCovr v w) = Smpctl.cpend w ∧
    Smpctl.cerr (Smpctl.setCovr v w) = Smpctl.cerr w ∧
    Smpctl.covr (Smpctl.setCovr v w) = v ∧
    getField 11 21 (Smpctl.setCovr v w) = getField 11 21 w :=
  ⟨getField_setBit_disjoint _ _ _ _ _ (by decide),
   getField_setBit_disjoint _ _ _ _ _ (by decide),
   getBit_setBit_ne _ _ _ _ (by decide),
   getBit_setBit_ne _ _ _ _ (by decide),
   getBit_setBit_ne _ _ _ _ (by decide),
   getBit_setBit_ne _ _ _ _ (by decide),
   getBit_setBit_ne _ _ _ _ (by decide),
   getBit_setBit_ne _ _ _ _ (by decide),
   getBit_setBit_same _ _ _ (by decide),
   getField_setBit_disjoint _ _ _ _ _ (by decide)⟩

/-! The fields of SEQCTL (R31): one law per write. -/

@[simp] theorem Seqctl.setCp_fields (v : BitVec 2) (w : Word) :
    Seqctl.cp (Seqctl.setCp v w) = v ∧
    Seqctl.tip (Seqctl.setCp v w) = Seqctl.tip w ∧
    Seqctl.started (Seqctl.setCp v w) = Seqctl.started w ∧
    Seqctl.sten (Seqctl.setCp v w) = Seqctl.sten w ∧
    Seqctl.stelapsed (Seqctl.setCp v w) = Seqctl.stelapsed w ∧
    getField 6 26 (Seqctl.setCp v w) = getField 6 26 w :=
  ⟨getField_setField_same _ _ _ (by decide),
   getBit_setField_disjoint _ _ _ _ (by decide),
   getBit_setField_disjoint _ _ _ _ (by decide),
   getBit_setField_disjoint _ _ _ _ (by decide),
   getBit_setField_disjoint _ _ _ _ (by decide),
   getField_setField_disjoint _ _ _ _ _ (by decide)⟩

@[simp] theorem Seqctl.setTip_fields (v : Bool) (w : Word) :
    Seqctl.cp (Seqctl.setTip v w) = Seqctl.cp w ∧
    Seqctl.tip (Seqctl.setTip v w) = v ∧
    Seqctl.started (Seqctl.setTip v w) = Seqctl.started w ∧
    Seqctl.sten (Seqctl.setTip v w) = Seqctl.sten w ∧
    Seqctl.stelapsed (Seqctl.setTip v w) = Seqctl.stelapsed w ∧
    getField 6 26 (Seqctl.setTip v w) = getField 6 26 w :=
  ⟨getField_setBit_disjoint _ _ _ _ _ (by decide),
   getBit_setBit_same _ _ _ (by decide),
   getBit_setBit_ne _ _ _ _ (by decide),
   getBit_setBit_ne _ _ _ _ (by decide),
   getBit_setBit_ne _ _ _ _ (by decide),
   getField_setBit_disjoint _ _ _ _ _ (by decide)⟩

@[simp] theorem Seqctl.setStarted_fields (v : Bool) (w : Word) :
    Seqctl.cp (Seqctl.setStarted v w) = Seqctl.cp w ∧
    Seqctl.tip (Seqctl.setStarted v w) = Seqctl.tip w ∧
    Seqctl.started (Seqctl.setStarted v w) = v ∧
    Seqctl.sten (Seqctl.setStarted v w) = Seqctl.sten w ∧
    Seqctl.stelapsed (Seqctl.setStarted v w) = Seqctl.stelapsed w ∧
    getField 6 26 (Seqctl.setStarted v w) = getField 6 26 w :=
  ⟨getField_setBit_disjoint _ _ _ _ _ (by decide),
   getBit_setBit_ne _ _ _ _ (by decide),
   getBit_setBit_same _ _ _ (by decide),
   getBit_setBit_ne _ _ _ _ (by decide),
   getBit_setBit_ne _ _ _ _ (by decide),
   getField_setBit_disjoint _ _ _ _ _ (by decide)⟩

@[simp] theorem Seqctl.setSten_fields (v : Bool) (w : Word) :
    Seqctl.cp (Seqctl.setSten v w) = Seqctl.cp w ∧
    Seqctl.tip (Seqctl.setSten v w) = Seqctl.tip w ∧
    Seqctl.started (Seqctl.setSten v w) = Seqctl.started w ∧
    Seqctl.sten (Seqctl.setSten v w) = v ∧
    Seqctl.stelapsed (Seqctl.setSten v w) = Seqctl.stelapsed w ∧
    getField 6 26 (Seqctl.setSten v w) = getField 6 26 w :=
  ⟨getField_setBit_disjoint _ _ _ _ _ (by decide),
   getBit_setBit_ne _ _ _ _ (by decide),
   getBit_setBit_ne _ _ _ _ (by decide),
   getBit_setBit_same _ _ _ (by decide),
   getBit_setBit_ne _ _ _ _ (by decide),
   getField_setBit_disjoint _ _ _ _ _ (by decide)⟩

@[simp] theorem Seqctl.setStelapsed_fields (v : Bool) (w : Word) :
    Seqctl.cp (Seqctl.setStelapsed v w) = Seqctl.cp w ∧
    Seqctl.tip (Seqctl.setStelapsed v w) = Seqctl.tip w ∧
    Seqctl.started (Seqctl.setStelapsed v w) = Seqctl.started w ∧
    Seqctl.sten (Seqctl.setStelapsed v w) = Seqctl.sten w ∧
    Seqctl.stelapsed (Seqctl.setStelapsed v w) = v ∧
    getField 6 26 (Seqctl.setStelapsed v w) = getField 6 26 w :=
  ⟨getField_setBit_disjoint _ _ _ _ _ (by decide),
   getBit_setBit_ne _ _ _ _ (by decide),
   getBit_setBit_ne _ _ _ _ (by decide),
   getBit_setBit_ne _ _ _ _ (by decide),
   getBit_setBit_same _ _ _ (by decide),
   getField_setBit_disjoint _ _ _ _ _ (by decide)⟩

/-! The fields of OUT (R33): one law per write. -/

@[simp] theorem Out.setFoc_fields (v : BitVec 2) (w : Word) :
    Out.foc (Out.setFoc v w) = v ∧
    Out.axa (Out.setFoc v w) = Out.axa w ∧
    Out.axb (Out.setFoc v w) = Out.axb w ∧
    getField 6 26 (Out.setFoc v w) = getField 6 26 w :=
  ⟨getField_setField_same _ _ _ (by decide),
   getField_setField_disjoint _ _ _ _ _ (by decide),
   getField_setField_disjoint _ _ _ _ _ (by decide),
   getField_setField_disjoint _ _ _ _ _ (by decide)⟩

@[simp] theorem Out.setAxa_fields (v : BitVec 2) (w : Word) :
    Out.foc (Out.setAxa v w) = Out.foc w ∧
    Out.axa (Out.setAxa v w) = v ∧
    Out.axb (Out.setAxa v w) = Out.axb w ∧
    getField 6 26 (Out.setAxa v w) = getField 6 26 w :=
  ⟨getField_setField_disjoint _ _ _ _ _ (by decide),
   getField_setField_same _ _ _ (by decide),
   getField_setField_disjoint _ _ _ _ _ (by decide),
   getField_setField_disjoint _ _ _ _ _ (by decide)⟩

@[simp] theorem Out.setAxb_fields (v : BitVec 2) (w : Word) :
    Out.foc (Out.setAxb v w) = Out.foc w ∧
    Out.axa (Out.setAxb v w) = Out.axa w ∧
    Out.axb (Out.setAxb v w) = v ∧
    getField 6 26 (Out.setAxb v w) = getField 6 26 w :=
  ⟨getField_setField_disjoint _ _ _ _ _ (by decide),
   getField_setField_disjoint _ _ _ _ _ (by decide),
   getField_setField_same _ _ _ (by decide),
   getField_setField_disjoint _ _ _ _ _ (by decide)⟩

/-! The fields of MAINCTL (R34): one law per write. -/

@[simp] theorem Mainctl.setMrun_fields (v : Bool) (w : Word) :
    Mainctl.mrun (Mainctl.setMrun v w) = v ∧
    Mainctl.g (Mainctl.setMrun v w) = Mainctl.g w ∧
    Mainctl.mpc (Mainctl.setMrun v w) = Mainctl.mpc w ∧
    Mainctl.tgt (Mainctl.setMrun v w) = Mainctl.tgt w ∧
    getField 2 2 (Mainctl.setMrun v w) = getField 2 2 w ∧
    getField 10 22 (Mainctl.setMrun v w) = getField 10 22 w :=
  ⟨getBit_setBit_same _ _ _ (by decide),
   getBit_setBit_ne _ _ _ _ (by decide),
   getField_setBit_disjoint _ _ _ _ _ (by decide),
   getField_setBit_disjoint _ _ _ _ _ (by decide),
   getField_setBit_disjoint _ _ _ _ _ (by decide),
   getField_setBit_disjoint _ _ _ _ _ (by decide)⟩

@[simp] theorem Mainctl.setG_fields (v : Bool) (w : Word) :
    Mainctl.mrun (Mainctl.setG v w) = Mainctl.mrun w ∧
    Mainctl.g (Mainctl.setG v w) = v ∧
    Mainctl.mpc (Mainctl.setG v w) = Mainctl.mpc w ∧
    Mainctl.tgt (Mainctl.setG v w) = Mainctl.tgt w ∧
    getField 2 2 (Mainctl.setG v w) = getField 2 2 w ∧
    getField 10 22 (Mainctl.setG v w) = getField 10 22 w :=
  ⟨getBit_setBit_ne _ _ _ _ (by decide),
   getBit_setBit_same _ _ _ (by decide),
   getField_setBit_disjoint _ _ _ _ _ (by decide),
   getField_setBit_disjoint _ _ _ _ _ (by decide),
   getField_setBit_disjoint _ _ _ _ _ (by decide),
   getField_setBit_disjoint _ _ _ _ _ (by decide)⟩

@[simp] theorem Mainctl.setMpc_fields (v : BitVec 4) (w : Word) :
    Mainctl.mrun (Mainctl.setMpc v w) = Mainctl.mrun w ∧
    Mainctl.g (Mainctl.setMpc v w) = Mainctl.g w ∧
    Mainctl.mpc (Mainctl.setMpc v w) = v ∧
    Mainctl.tgt (Mainctl.setMpc v w) = Mainctl.tgt w ∧
    getField 2 2 (Mainctl.setMpc v w) = getField 2 2 w ∧
    getField 10 22 (Mainctl.setMpc v w) = getField 10 22 w :=
  ⟨getBit_setField_disjoint _ _ _ _ (by decide),
   getBit_setField_disjoint _ _ _ _ (by decide),
   getField_setField_same _ _ _ (by decide),
   getField_setField_disjoint _ _ _ _ _ (by decide),
   getField_setField_disjoint _ _ _ _ _ (by decide),
   getField_setField_disjoint _ _ _ _ _ (by decide)⟩

@[simp] theorem Mainctl.setTgt_fields (v : BitVec 2) (w : Word) :
    Mainctl.mrun (Mainctl.setTgt v w) = Mainctl.mrun w ∧
    Mainctl.g (Mainctl.setTgt v w) = Mainctl.g w ∧
    Mainctl.mpc (Mainctl.setTgt v w) = Mainctl.mpc w ∧
    Mainctl.tgt (Mainctl.setTgt v w) = v ∧
    getField 2 2 (Mainctl.setTgt v w) = getField 2 2 w ∧
    getField 10 22 (Mainctl.setTgt v w) = getField 10 22 w :=
  ⟨getBit_setField_disjoint _ _ _ _ (by decide),
   getBit_setField_disjoint _ _ _ _ (by decide),
   getField_setField_disjoint _ _ _ _ _ (by decide),
   getField_setField_same _ _ _ (by decide),
   getField_setField_disjoint _ _ _ _ _ (by decide),
   getField_setField_disjoint _ _ _ _ _ (by decide)⟩

/-! The fields of BUSCTL (R37): one law per write. -/

@[simp] theorem Busctl.setMfull_fields (v : Bool) (w : Word) :
    Busctl.mfull (Busctl.setMfull v w) = v ∧
    Busctl.mkind (Busctl.setMfull v w) = Busctl.mkind w ∧
    Busctl.bwait (Busctl.setMfull v w) = Busctl.bwait w ∧
    Busctl.txv (Busctl.setMfull v w) = Busctl.txv w ∧
    getField 4 28 (Busctl.setMfull v w) = getField 4 28 w :=
  ⟨getBit_setBit_same _ _ _ (by decide),
   getBit_setBit_ne _ _ _ _ (by decide),
   getBit_setBit_ne _ _ _ _ (by decide),
   getBit_setBit_ne _ _ _ _ (by decide),
   getField_setBit_disjoint _ _ _ _ _ (by decide)⟩

@[simp] theorem Busctl.setMkind_fields (v : Bool) (w : Word) :
    Busctl.mfull (Busctl.setMkind v w) = Busctl.mfull w ∧
    Busctl.mkind (Busctl.setMkind v w) = v ∧
    Busctl.bwait (Busctl.setMkind v w) = Busctl.bwait w ∧
    Busctl.txv (Busctl.setMkind v w) = Busctl.txv w ∧
    getField 4 28 (Busctl.setMkind v w) = getField 4 28 w :=
  ⟨getBit_setBit_ne _ _ _ _ (by decide),
   getBit_setBit_same _ _ _ (by decide),
   getBit_setBit_ne _ _ _ _ (by decide),
   getBit_setBit_ne _ _ _ _ (by decide),
   getField_setBit_disjoint _ _ _ _ _ (by decide)⟩

@[simp] theorem Busctl.setBwait_fields (v : Bool) (w : Word) :
    Busctl.mfull (Busctl.setBwait v w) = Busctl.mfull w ∧
    Busctl.mkind (Busctl.setBwait v w) = Busctl.mkind w ∧
    Busctl.bwait (Busctl.setBwait v w) = v ∧
    Busctl.txv (Busctl.setBwait v w) = Busctl.txv w ∧
    getField 4 28 (Busctl.setBwait v w) = getField 4 28 w :=
  ⟨getBit_setBit_ne _ _ _ _ (by decide),
   getBit_setBit_ne _ _ _ _ (by decide),
   getBit_setBit_same _ _ _ (by decide),
   getBit_setBit_ne _ _ _ _ (by decide),
   getField_setBit_disjoint _ _ _ _ _ (by decide)⟩

@[simp] theorem Busctl.setTxv_fields (v : Bool) (w : Word) :
    Busctl.mfull (Busctl.setTxv v w) = Busctl.mfull w ∧
    Busctl.mkind (Busctl.setTxv v w) = Busctl.mkind w ∧
    Busctl.bwait (Busctl.setTxv v w) = Busctl.bwait w ∧
    Busctl.txv (Busctl.setTxv v w) = v ∧
    getField 4 28 (Busctl.setTxv v w) = getField 4 28 w :=
  ⟨getBit_setBit_ne _ _ _ _ (by decide),
   getBit_setBit_ne _ _ _ _ (by decide),
   getBit_setBit_ne _ _ _ _ (by decide),
   getBit_setBit_same _ _ _ (by decide),
   getField_setBit_disjoint _ _ _ _ _ (by decide)⟩

/-! The flags of STAT (R25, R26). -/

theorem getLsbD_statRead (w : Word) (i : Nat) :
    (Stat.read w).getLsbD i = (w.getLsbD i && decide (i = 3 ∨ i = 4 ∨ i = 5 ∨ i = 8)) := by
  have h : (0x138#32).getLsbD i = decide (i = 3 ∨ i = 4 ∨ i = 5 ∨ i = 8) := by
    by_cases hi : i < 32
    · have key : ∀ j : Fin 32, (0x138#32).getLsbD j = decide (j.val = 3 ∨ j.val = 4 ∨ j.val = 5 ∨ j.val = 8) := by decide
      exact key ⟨i, hi⟩
    · rw [BitVec.getLsbD_of_ge _ _ (by omega)]
      simp
      omega
  simp only [Stat.read, BitVec.getLsbD_and, h]

/-- A read of STAT sees 0 in the hardwired bits (R26). -/
@[simp] theorem stat_hardwired (w : Word) :
    Stat.busOvr w = false ∧ Stat.busErr w = false ∧ Stat.busNst w = false ∧ Stat.seqOvr w = false ∧
      Stat.seqErr w = false := by
  simp only [Stat.busOvr, Stat.busErr, Stat.busNst, Stat.seqOvr, Stat.seqErr, getBit, getLsbD_statRead]
  simp

/-- The live bits of STAT are read as stored (R25). -/
theorem stat_live (w : Word) :
    Stat.smpOvr w = getBit 3 w ∧ Stat.smpErr w = getBit 4 w ∧ Stat.smpNst w = getBit 5 w ∧ Stat.seqNst w = getBit 8 w := by
  simp only [Stat.smpOvr, Stat.smpErr, Stat.smpNst, Stat.seqNst, getBit, getLsbD_statRead]
  simp

@[simp] theorem Stat.setSmpOvr_flags (b : Bool) (w : Word) :
    Stat.smpOvr (Stat.setSmpOvr b w) = b ∧
    Stat.smpErr (Stat.setSmpOvr b w) = Stat.smpErr w ∧
    Stat.smpNst (Stat.setSmpOvr b w) = Stat.smpNst w ∧
    Stat.seqNst (Stat.setSmpOvr b w) = Stat.seqNst w ∧
    Stat.read (Stat.setSmpOvr b w) = Stat.setSmpOvr b (Stat.read w) := by
  refine ⟨?_, ?_, ?_, ?_, ?_⟩
  case refine_5 =>
    apply BitVec.eq_of_getLsbD_eq
    intro i hi
    simp only [Stat.setSmpOvr, setBit, getLsbD_setField, getLsbD_statRead]
    split <;> simp_all
    omega
  all_goals
    simp only [(stat_live _).1, (stat_live _).2.1, (stat_live _).2.2.1, (stat_live _).2.2.2]
    first
      | exact getBit_setBit_same _ _ _ (by decide)
      | exact getBit_setBit_ne _ _ _ _ (by decide)

@[simp] theorem Stat.setSmpErr_flags (b : Bool) (w : Word) :
    Stat.smpOvr (Stat.setSmpErr b w) = Stat.smpOvr w ∧
    Stat.smpErr (Stat.setSmpErr b w) = b ∧
    Stat.smpNst (Stat.setSmpErr b w) = Stat.smpNst w ∧
    Stat.seqNst (Stat.setSmpErr b w) = Stat.seqNst w ∧
    Stat.read (Stat.setSmpErr b w) = Stat.setSmpErr b (Stat.read w) := by
  refine ⟨?_, ?_, ?_, ?_, ?_⟩
  case refine_5 =>
    apply BitVec.eq_of_getLsbD_eq
    intro i hi
    simp only [Stat.setSmpErr, setBit, getLsbD_setField, getLsbD_statRead]
    split <;> simp_all
    omega
  all_goals
    simp only [(stat_live _).1, (stat_live _).2.1, (stat_live _).2.2.1, (stat_live _).2.2.2]
    first
      | exact getBit_setBit_same _ _ _ (by decide)
      | exact getBit_setBit_ne _ _ _ _ (by decide)

@[simp] theorem Stat.setSmpNst_flags (b : Bool) (w : Word) :
    Stat.smpOvr (Stat.setSmpNst b w) = Stat.smpOvr w ∧
    Stat.smpErr (Stat.setSmpNst b w) = Stat.smpErr w ∧
    Stat.smpNst (Stat.setSmpNst b w) = b ∧
    Stat.seqNst (Stat.setSmpNst b w) = Stat.seqNst w ∧
    Stat.read (Stat.setSmpNst b w) = Stat.setSmpNst b (Stat.read w) := by
  refine ⟨?_, ?_, ?_, ?_, ?_⟩
  case refine_5 =>
    apply BitVec.eq_of_getLsbD_eq
    intro i hi
    simp only [Stat.setSmpNst, setBit, getLsbD_setField, getLsbD_statRead]
    split <;> simp_all
    omega
  all_goals
    simp only [(stat_live _).1, (stat_live _).2.1, (stat_live _).2.2.1, (stat_live _).2.2.2]
    first
      | exact getBit_setBit_same _ _ _ (by decide)
      | exact getBit_setBit_ne _ _ _ _ (by decide)

@[simp] theorem Stat.setSeqNst_flags (b : Bool) (w : Word) :
    Stat.smpOvr (Stat.setSeqNst b w) = Stat.smpOvr w ∧
    Stat.smpErr (Stat.setSeqNst b w) = Stat.smpErr w ∧
    Stat.smpNst (Stat.setSeqNst b w) = Stat.smpNst w ∧
    Stat.seqNst (Stat.setSeqNst b w) = b ∧
    Stat.read (Stat.setSeqNst b w) = Stat.setSeqNst b (Stat.read w) := by
  refine ⟨?_, ?_, ?_, ?_, ?_⟩
  case refine_5 =>
    apply BitVec.eq_of_getLsbD_eq
    intro i hi
    simp only [Stat.setSeqNst, setBit, getLsbD_setField, getLsbD_statRead]
    split <;> simp_all
    omega
  all_goals
    simp only [(stat_live _).1, (stat_live _).2.1, (stat_live _).2.2.1, (stat_live _).2.2.2]
    first
      | exact getBit_setBit_same _ _ _ (by decide)
      | exact getBit_setBit_ne _ _ _ _ (by decide)

end Sys2Proof.Machine
end

