-- ==== Sys2Proof/Laws/Ops.lean ====
section
/-! SUPPORT. What each shared operation and each meaning can answer, said once: the proofs cite these instead of unfolding. -/

namespace Sys2Proof.Machine

/-- The conditions a legal configuration meets (R7, R8). -/
theorem legal_iff (p : Params) : p.legal = true ↔
    (p.word = 32 ∧ p.sampleWord = 16 ∧ p.nch = 3) ∧ 1 ≤ p.scale ∧ 1 ≤ p.samplePeriod ∧ 1 ≤ p.settleTicks ∧
      p.sampleBits ≤ p.sampleWord ∧ p.mask / p.scale ≤ p.focusMax := by
  simp [Params.legal, Params.widthsFixed, Params.conditionsHold]

/-- In a legal configuration the significant bits fit the 16 bits of a sample register (R7, R8). -/
theorem sampleBits_le_of_legal {p : Params} (h : p.legal = true) : p.sampleBits ≤ 16 := by
  obtain ⟨⟨-, hw, -⟩, -, -, -, hb, -⟩ := (legal_iff p).mp h
  omega

/-- A guarded step answers a next state exactly in a legal configuration, with its guard true, as its body does. -/
theorem whenEnabled_next_iff (ev : Instr) (g : Bool) (s t : State) (k : Result) :
    whenEnabled ev g s k = .next t ↔ s.cfg.legal = true ∧ g = true ∧ k = .next t := by
  unfold whenEnabled
  cases s.cfg.legal <;> cases g <;> simp

theorem whenEnabled_of_enabled (ev : Instr) (g : Bool) (s : State) (k : Result) (hl : s.cfg.legal = true)
    (hg : g = true) : whenEnabled ev g s k = k := by
  simp [whenEnabled, hl, hg]

theorem whenEnabled_of_disabled (ev : Instr) (g : Bool) (s : State) (k : Result) (hl : s.cfg.legal = true)
    (hg : g = false) : whenEnabled ev g s k = .refused (.notEnabled ev) := by
  simp [whenEnabled, hl, hg]

theorem whenEnabled_of_illegal (ev : Instr) (g : Bool) (s : State) (k : Result) (hl : s.cfg.legal = false) :
    whenEnabled ev g s k = .refused .illegalConfiguration := by
  simp [whenEnabled, hl]

theorem complete_next_iff (t u : State) (r : Response) : complete t r = .next u ↔ u = { t with resp := r } := by
  unfold complete
  constructor
  · intro h
    exact (Host.Outcome.next.inj h).symm
  · rintro rfl
    rfl

/-- A handler is enabled exactly when its line is pending and none is active (R271). -/
theorem handlerEnabled_iff (l : IrqLine) (s : State) :
    handlerEnabled l s = true ↔ pending l s = true ∧ Busctl.bwait s.busctl = false := by
  simp [handlerEnabled, handlerActive]

/-! One inversion per operation: when it answers a next state, and which. -/

theorem reset_next_iff (s t : State) :
    exec .reset s = .next t ↔ s.cfg.legal = true ∧ t = { resetState s with resp := .nothing } := by
  simp [exec, execReset, whenEnabled_next_iff, complete_next_iff]

theorem samplerInit_next_iff (s t : State) :
    exec .samplerInit s = .next t ↔ s.cfg.legal = true ∧ t = { samplerInit s with resp := .nothing } := by
  simp [exec, execSamplerInit, whenEnabled_next_iff, complete_next_iff]

theorem seqStart_next_iff (s t : State) :
    exec .seqStart s = .next t ↔ s.cfg.legal = true ∧ t = { seqStart s with resp := .nothing } := by
  simp [exec, execSeqStart, whenEnabled_next_iff, complete_next_iff]

theorem mainStart_next_iff (s t : State) :
    exec .mainStart s = .next t ↔ s.cfg.legal = true ∧ t = { mainStart s with resp := .nothing } := by
  simp [exec, execMainStart, whenEnabled_next_iff, complete_next_iff]

theorem busCmd_next_iff (d : Word) (s t : State) :
    exec (.busCmd d) s = .next t ↔ s.cfg.legal = true ∧ t = { arrive false d s with resp := .nothing } := by
  simp [exec, execBusCmd, whenEnabled_next_iff, complete_next_iff]

theorem busStatreq_next_iff (s t : State) :
    exec .busStatreq s = .next t ↔ s.cfg.legal = true ∧ t = { arrive true 0 s with resp := .nothing } := by
  simp [exec, execBusStatreq, whenEnabled_next_iff, complete_next_iff]

theorem txDone_next_iff (a e : Bool) (s t : State) :
    exec (.txDone a e) s = .next t ↔
      s.cfg.legal = true ∧ Busctl.bwait s.busctl = true ∧ t = { returnFromWait s with resp := .nothing } := by
  simp [exec, execTxDone, whenEnabled_next_iff, complete_next_iff, handlerActive]

theorem aggQuery_next_iff (b : Bool) (s t : State) :
    exec (.aggQuery b) s = .next t ↔ s.cfg.legal = true ∧
      t = { s with stat := Stat.setSmpOvr false s.stat, resp := Response.ofOk (aggregateOk b s) } := by
  simp [exec, execAggQuery, whenEnabled_next_iff, complete_next_iff]

theorem smpStatus_next_iff (s t : State) :
    exec .smpStatus s = .next t ↔ s.cfg.legal = true ∧ t = { s with resp := Response.ofOk (samplerOk s) } := by
  simp [exec, execSmpStatus, whenEnabled_next_iff, complete_next_iff]

theorem seqStatus_next_iff (s t : State) :
    exec .seqStatus s = .next t ↔ s.cfg.legal = true ∧ t = { s with resp := Response.ofOk (sequencerOk s) } := by
  simp [exec, execSeqStatus, whenEnabled_next_iff, complete_next_iff]

theorem readTargets_next_iff (s t : State) :
    exec .readTargets s = .next t ↔ s.cfg.legal = true ∧ t = { s with resp := .word (packBytes s.ft s.rt) } := by
  simp [exec, execReadTargets, whenEnabled_next_iff, complete_next_iff]

theorem readSample_next_iff (ch : BitVec 2) (s t : State) :
    exec (.readSample ch) s = .next t ↔ s.cfg.legal = true ∧
      ∃ v, sampleOf ch s = some v ∧ t = { s with resp := .word (v.setWidth 32) } := by
  simp only [exec, execReadSample, whenEnabled_next_iff, true_and]
  cases sampleOf ch s <;> simp [complete_next_iff]

theorem trgTick_next_iff (s t : State) :
    exec .trgTick s = .next t ↔
      s.cfg.legal = true ∧ Smpctl.sst s.smpctl ≠ sstIdle ∧ t = { trgTick s with resp := .nothing } := by
  simp [exec, execTrgTick, whenEnabled_next_iff, complete_next_iff]

theorem conv_next_iff (v : SampleWord) (e o : Bool) (s t : State) :
    exec (.conv v e o) s = .next t ↔
      s.cfg.legal = true ∧ Smpctl.busy s.smpctl = true ∧ t = { convert v e o s with resp := .nothing } := by
  simp [exec, execConv, whenEnabled_next_iff, complete_next_iff]

theorem settleTick_next_iff (s t : State) :
    exec .settleTick s = .next t ↔
      s.cfg.legal = true ∧ Seqctl.sten s.seqctl = true ∧ t = { settleTick s with resp := .nothing } := by
  simp [exec, execSettleTick, whenEnabled_next_iff, complete_next_iff]

theorem isrSmp_next_iff (s t : State) :
    exec .isrSmp s = .next t ↔ s.cfg.legal = true ∧
      (Smpctl.cpend s.smpctl = true ∧ Busctl.bwait s.busctl = false) ∧ t = { samplerHandler s with resp := .nothing } := by
  simp [exec, execIsrSmp, whenEnabled_next_iff, complete_next_iff, handlerEnabled_iff, pending]

theorem isrSeq_next_iff (s t : State) :
    exec .isrSeq s = .next t ↔ s.cfg.legal = true ∧
      (Seqctl.stelapsed s.seqctl = true ∧ Busctl.bwait s.busctl = false) ∧ t = { settleHandler s with resp := .nothing } := by
  simp [exec, execIsrSeq, whenEnabled_next_iff, complete_next_iff, handlerEnabled_iff, pending]

theorem isrBus_next_iff (s t : State) :
    exec .isrBus s = .next t ↔ s.cfg.legal = true ∧
      (Busctl.mfull s.busctl = true ∧ Busctl.bwait s.busctl = false) ∧ t = { busHandler s with resp := .nothing } := by
  simp [exec, execIsrBus, whenEnabled_next_iff, complete_next_iff, handlerEnabled_iff, pending]

theorem mainStep_next_iff (s t : State) :
    exec .mainStep s = .next t ↔ s.cfg.legal = true ∧
      (Mainctl.mrun s.mainctl = true ∧ Busctl.bwait s.busctl = false) ∧
      ∃ u, microStep s = some u ∧ t = { u with resp := .nothing } := by
  simp only [exec, execMainStep, whenEnabled_next_iff, mainEnabled, handlerActive]
  cases microStep s <;> simp [complete_next_iff]

/-! The micro-steps by the value of MPC (R36, R243). -/

theorem microStep_at_0 (s : State) (h : Mainctl.mpc s.mainctl = 0#4) : microStep s = some (microM0 s) := by
  simp [microStep, h]

theorem microStep_at_1 (s : State) (h : Mainctl.mpc s.mainctl = 1#4) : microStep s = some (microM1 s) := by
  simp [microStep, h]

theorem microStep_at_2 (s : State) (h : Mainctl.mpc s.mainctl = 2#4) : microStep s = some (microM2 s) := by
  simp [microStep, h]

theorem microStep_at_3 (s : State) (h : Mainctl.mpc s.mainctl = 3#4) : microStep s = some (microM3 s) := by
  simp [microStep, h]

theorem microStep_at_4 (s : State) (h : Mainctl.mpc s.mainctl = 4#4) : microStep s = some (microM4 s) := by
  simp [microStep, h]

theorem microStep_at_5 (s : State) (h : Mainctl.mpc s.mainctl = 5#4) : microStep s = some (microM5 s) := by
  simp [microStep, h]

theorem microStep_at_6 (s : State) (h : Mainctl.mpc s.mainctl = 6#4) : microStep s = some (microSp1 s) := by
  simp [microStep, h]

theorem microStep_at_7 (s : State) (h : Mainctl.mpc s.mainctl = 7#4) : microStep s = some (microSp2 s) := by
  simp [microStep, h]

theorem microStep_at_8 (s : State) (h : Mainctl.mpc s.mainctl = 8#4) : microStep s = some (microSp3 s) := by
  simp [microStep, h]

theorem microStep_at_9 (s : State) (h : Mainctl.mpc s.mainctl = 9#4) : microStep s = some (microSp4 s) := by
  simp [microStep, h]

theorem microStep_at_10 (s : State) (h : Mainctl.mpc s.mainctl = 10#4) : microStep s = some (microSp5 s) := by
  simp [microStep, h]

theorem microStep_eq_none_iff (s : State) : microStep s = none ↔ 11 ≤ (Mainctl.mpc s.mainctl).toNat := by
  have key : ∀ n : BitVec 4, n = 0#4 ∨ n = 1#4 ∨ n = 2#4 ∨ n = 3#4 ∨ n = 4#4 ∨ n = 5#4 ∨ n = 6#4 ∨ n = 7#4 ∨ n = 8#4 ∨ n = 9#4 ∨ n = 10#4 ∨
      11 ≤ n.toNat := by decide
  rcases key (Mainctl.mpc s.mainctl) with k | k | k | k | k | k | k | k | k | k | k | k
  case inr.inr.inr.inr.inr.inr.inr.inr.inr.inr.inr =>
    refine ⟨fun _ => k, fun _ => ?_⟩
    unfold microStep
    split <;> first | omega | rfl
  all_goals simp [microStep, k]

/-- What a micro-step can be (R36, R243). -/
theorem microStep_cases (s u : State) (h : microStep s = some u) :
    (Mainctl.mpc s.mainctl = 0#4 ∧ u = microM0 s) ∨
    (Mainctl.mpc s.mainctl = 1#4 ∧ u = microM1 s) ∨
    (Mainctl.mpc s.mainctl = 2#4 ∧ u = microM2 s) ∨
    (Mainctl.mpc s.mainctl = 3#4 ∧ u = microM3 s) ∨
    (Mainctl.mpc s.mainctl = 4#4 ∧ u = microM4 s) ∨
    (Mainctl.mpc s.mainctl = 5#4 ∧ u = microM5 s) ∨
    (Mainctl.mpc s.mainctl = 6#4 ∧ u = microSp1 s) ∨
    (Mainctl.mpc s.mainctl = 7#4 ∧ u = microSp2 s) ∨
    (Mainctl.mpc s.mainctl = 8#4 ∧ u = microSp3 s) ∨
    (Mainctl.mpc s.mainctl = 9#4 ∧ u = microSp4 s) ∨
    (Mainctl.mpc s.mainctl = 10#4 ∧ u = microSp5 s) := by
  have key : ∀ n : BitVec 4, n = 0#4 ∨ n = 1#4 ∨ n = 2#4 ∨ n = 3#4 ∨ n = 4#4 ∨ n = 5#4 ∨ n = 6#4 ∨ n = 7#4 ∨ n = 8#4 ∨ n = 9#4 ∨ n = 10#4 ∨
      11 ≤ n.toNat := by decide
  rcases key (Mainctl.mpc s.mainctl) with k | k | k | k | k | k | k | k | k | k | k | k
  case inr.inr.inr.inr.inr.inr.inr.inr.inr.inr.inr =>
    rw [(microStep_eq_none_iff s).mpr k] at h
    cases h
  all_goals
    simp only [microStep, k, BitVec.toNat_ofNat, Nat.reducePow, Nat.reduceMod, Option.some.injEq] at h
    simp [k, h.symm]

/-- The undefined rows of the direction table are the ones with equal phases (R200, R201). -/
theorem dirTable_isSome_iff (p q : Phase) : (dirTable p q).isSome = true ↔ p ≠ q := by
  cases p <;> cases q <;> decide

/-- The scaled value as a number (R140): it fits its word because a sample does. -/
theorem scale_toNat (p : Params) (raw : SampleWord) : (scale p raw).toNat = (raw.toNat &&& p.mask) / p.scale := by
  have h1 : raw.toNat &&& p.mask ≤ raw.toNat := Nat.and_le_left
  have h2 : (raw.toNat &&& p.mask) / p.scale ≤ raw.toNat &&& p.mask := Nat.div_le_self _ _
  have h3 := raw.isLt
  simp only [scale, BitVec.toNat_ofNat]
  exact Nat.mod_eq_of_lt (by omega)

/-- A direction is never coded 3 (R100). -/
theorem dir_code_ne_three (d : Dir) : d.code ≠ 3#2 := by cases d <;> decide

end Sys2Proof.Machine
end

