-- ==== Sys2Proof/Laws/Effects.lean ====
section
/-! SUPPORT. Each effect with branches as one record update: which registers it writes and with what, every other field kept.
A later proof rewrites with these and never splits the effect itself. -/

namespace Sys2Proof.Machine

theorem samplerInit_eq (s : State) : samplerInit s = { s with
    smpctl := if Smpctl.sst s.smpctl = sstIdle then
        s.smpctl |> Smpctl.setSst sstArmed |> Smpctl.setWix 0 |> Smpctl.setBusy false |> Smpctl.setAerr false
          |> Smpctl.setAovr false
      else s.smpctl
    trgcnt := if Smpctl.sst s.smpctl = sstIdle then 0 else s.trgcnt } := by
  unfold samplerInit
  split <;> rfl

theorem seqStart_eq (s : State) : seqStart s = { s with
    seqctl := if Seqctl.started s.seqctl then s.seqctl
      else s.seqctl |> Seqctl.setStarted true |> Seqctl.setCp 0 |> Seqctl.setSten true |> Seqctl.setTip true
    out := if Seqctl.started s.seqctl then s.out else driveAxes (.rev, .rev) s.out
    stcnt := if Seqctl.started s.seqctl then s.stcnt else 0 } := by
  unfold seqStart
  split <;> rfl

theorem mainStart_eq (s : State) : mainStart s = { s with
    mainctl := if Mainctl.mrun s.mainctl then s.mainctl else s.mainctl |> Mainctl.setMrun true |> Mainctl.setMpc 0 } := by
  unfold mainStart
  split <;> rfl

theorem arrive_eq (kind : Bool) (d : Word) (s : State) : arrive kind d s = { s with
    busctl := if Busctl.mfull s.busctl then s.busctl else s.busctl |> Busctl.setMfull true |> Busctl.setMkind kind
    mdata := if Busctl.mfull s.busctl then s.mdata else d } := by
  unfold arrive
  split <;> rfl

theorem trgTick_eq (s : State) : trgTick s = { s with
    trgcnt := if s.trgcnt.toNat + 1 = s.cfg.samplePeriod then 0 else s.trgcnt + 1
    smpctl := if s.trgcnt.toNat + 1 = s.cfg.samplePeriod then triggerEdge s.smpctl else s.smpctl } := by
  unfold trgTick
  split <;> rfl

theorem writeBuf_eq (k : BitVec 2) (v : SampleWord) (s : State) : writeBuf k v s = { s with
    buf0 := if k = 0#2 then v else s.buf0
    buf1 := if k = 1#2 then v else s.buf1
    buf2 := if k = 2#2 then v else s.buf2 } := by
  have key : ∀ x : BitVec 2, x = 0#2 ∨ x = 1#2 ∨ x = 2#2 ∨ x = 3#2 := by decide
  rcases key k with rfl | rfl | rfl | rfl <;> rfl

theorem convert_eq (v : SampleWord) (e o : Bool) (s : State) : convert v e o s = { s with
    buf0 := if Smpctl.wix s.smpctl = 0#2 then v else s.buf0
    buf1 := if Smpctl.wix s.smpctl = 1#2 then v else s.buf1
    buf2 := if Smpctl.wix s.smpctl = 2#2 then v else s.buf2
    smp0 := if 2 ≤ (Smpctl.wix s.smpctl).toNat ∧ (Smpctl.aerr s.smpctl || e) = false then s.buf0 else s.smp0
    smp1 := if 2 ≤ (Smpctl.wix s.smpctl).toNat ∧ (Smpctl.aerr s.smpctl || e) = false then s.buf1 else s.smp1
    smp2 := if 2 ≤ (Smpctl.wix s.smpctl).toNat ∧ (Smpctl.aerr s.smpctl || e) = false then v else s.smp2
    smpctl := if (Smpctl.wix s.smpctl).toNat < 2 then
        s.smpctl |> Smpctl.setWix (Smpctl.wix s.smpctl + 1) |> Smpctl.setAerr (Smpctl.aerr s.smpctl || e)
          |> Smpctl.setAovr (Smpctl.aovr s.smpctl || o)
      else
        s.smpctl |> Smpctl.setWix 0 |> Smpctl.setBusy false
          |> raiseCompletion (Smpctl.aerr s.smpctl || e) (Smpctl.aovr s.smpctl || o)
          |> Smpctl.setAerr false |> Smpctl.setAovr false } := by
  have key : ∀ x : BitVec 2, x = 0#2 ∨ x = 1#2 ∨ x = 2#2 ∨ x = 3#2 := by decide
  unfold convert
  rcases key (Smpctl.wix s.smpctl) with h | h | h | h <;>
    cases hae : (Smpctl.aerr s.smpctl || e) <;> simp [writeBuf, commit, h]

/-- The success steps: Error cleared always, the rest only before the first completion (R152). -/
theorem handleSuccess_eq (s : State) : handleSuccess s = { s with
    stat := if Smpctl.first s.smpctl then Stat.setSmpErr false s.stat
      else s.stat |> Stat.setSmpErr false |> Stat.setSmpNst false
    ft := if Smpctl.first s.smpctl then s.ft else scale s.cfg s.smp0
    smpctl := if Smpctl.first s.smpctl then s.smpctl else Smpctl.setFirst true s.smpctl } := by
  unfold handleSuccess
  split <;> rfl

theorem handleOverrun_eq (o : Bool) (s : State) :
    handleOverrun o s = { s with stat := if o then Stat.setSmpOvr true s.stat else s.stat } := by
  unfold handleOverrun
  split <;> rfl

/-- The registers the completion handler writes (R150 to R155): FT, STAT and SMPCTL, no other. -/
theorem samplerHandler_eq (s : State) : samplerHandler s = { s with
    ft := if Smpctl.cerr s.smpctl || Smpctl.first s.smpctl then s.ft else scale s.cfg s.smp0
    stat :=
      (if Smpctl.cerr s.smpctl then Stat.setSmpErr true s.stat
        else if Smpctl.first s.smpctl then Stat.setSmpErr false s.stat
        else s.stat |> Stat.setSmpErr false |> Stat.setSmpNst false)
      |> (if Smpctl.covr s.smpctl then Stat.setSmpOvr true else id)
    smpctl :=
      (s.smpctl |> Smpctl.setCpend false |> Smpctl.setCerr false |> Smpctl.setCovr false)
      |> (if Smpctl.cerr s.smpctl || Smpctl.first s.smpctl then id else Smpctl.setFirst true) } := by
  unfold samplerHandler
  cases h1 : Smpctl.cerr s.smpctl <;> cases h2 : Smpctl.first s.smpctl <;> cases h3 : Smpctl.covr s.smpctl <;>
    simp [takeHandler, handleOverrun, handleError, handleSuccess, h2]

/-- The registers the bus receive handler writes (R174 to R178): FT, RT, BUSCTL, MDATA and TXW, no other. -/
theorem busHandler_eq (s : State) : busHandler s = { s with
    ft := if Busctl.mkind s.busctl = false ∧ (focField s.mdata).toNat ≤ s.cfg.focusMax then focField s.mdata else s.ft
    rt := if Busctl.mkind s.busctl = false ∧ validPhase (rotField s.mdata) = true then rotField s.mdata else s.rt
    busctl :=
      (s.busctl |> Busctl.setMfull false |> Busctl.setMkind false)
      |> (if Busctl.mkind s.busctl then fun w => w |> Busctl.setTxv true |> Busctl.setBwait true else id)
    mdata := 0
    txw := if Busctl.mkind s.busctl then statusWord s else s.txw } := by
  unfold busHandler
  cases h : Busctl.mkind s.busctl
  · simp [takeHandler, decodeCommand]
    rfl
  · simp [takeHandler, emitTx]

/-- The registers SP3 writes (R233): OUT and MAINCTL, and one draw where the direction table has no row (log 7). -/
theorem microSp3_eq (s : State) : microSp3 s = { s with
    out := driveAxes ((dirOfCodes (Seqctl.cp s.seqctl) (Mainctl.tgt s.mainctl)).getD (Config.undefinedPair s.draws)) s.out
    mainctl := Mainctl.setMpc 9 s.mainctl
    draws := if (dirOfCodes (Seqctl.cp s.seqctl) (Mainctl.tgt s.mainctl)).isSome then s.draws else s.draws + 1 } := by
  unfold microSp3
  cases dirOfCodes (Seqctl.cp s.seqctl) (Mainctl.tgt s.mainctl) <;> rfl

end Sys2Proof.Machine
end

