-- ==== Sys2Proof/Laws/Keeps.lean ====
section
/-! SUPPORT. The frame predicates of Safety.lean: how a field write, a run and a register read meet them. -/

namespace Sys2Proof.Machine

theorem keepsBits_refl (bits : List Nat) (w : Word) : KeepsBits bits w w := fun _ _ => rfl

theorem keepsBits_trans {bits : List Nat} {w w' w'' : Word} (h : KeepsBits bits w w') (h' : KeepsBits bits w' w'') :
    KeepsBits bits w w'' := fun i hi => (h' i hi).trans (h i hi)

/-- A field write keeps every bit outside the field. -/
theorem keepsBits_setField {len : Nat} (bits : List Nat) (lo : Nat) (v : BitVec len) (w w' : Word)
    (hb : (List.range len).all (fun k => bits.contains (lo + k)) = true) (h : KeepsBits bits w w') :
    KeepsBits bits w (setField lo v w') := by
  intro i hi
  rw [getLsbD_setField, if_neg, h i hi]
  rintro ⟨h1, h2, -⟩
  have h3 := List.all_eq_true.mp hb (i - lo) (List.mem_range.mpr (by omega))
  rw [Nat.add_sub_cancel' h1] at h3
  exact hi (List.contains_iff_mem.mp h3)

theorem keepsBits_setBit (bits : List Nat) (i : Nat) (b : Bool) (w w' : Word) (hb : bits.contains i = true)
    (h : KeepsBits bits w w') : KeepsBits bits w (setBit i b w') :=
  keepsBits_setField bits i _ w w' (by simpa using hb) h

theorem execAll_nil (s : State) : execAll [] s = .next s := rfl

theorem execAll_cons_next_iff (i : Instr) (is : List Instr) (s t : State) :
    execAll (i :: is) s = .next t ↔ ∃ u, exec i s = .next u ∧ execAll is u = .next t := by
  rw [execAll]
  cases exec i s <;> simp

/-- A run of one list after another. -/
theorem execAll_append_next_iff (is js : List Instr) (s t : State) :
    execAll (is ++ js) s = .next t ↔ ∃ u, execAll is s = .next u ∧ execAll js u = .next t := by
  induction is generalizing s with
  | nil => simp [execAll_nil]
  | cons i is ih =>
    simp only [List.cons_append, execAll_cons_next_iff, ih]
    constructor
    · rintro ⟨u, hu, v, hv, ht⟩
      exact ⟨v, ⟨u, hu, hv⟩, ht⟩
    · rintro ⟨v, ⟨u, hu, hv⟩, ht⟩
      exact ⟨u, hu, v, hv, ht⟩

theorem enabled_iff (i : Instr) (s : State) : enabled i s = true ↔ ∃ t, exec i s = .next t := by
  unfold enabled
  cases exec i s <;> simp

/-- Nothing changed but the response. -/
theorem keepsAllBut_resp (rs : List Reg) (s : State) (r : Response) : KeepsAllBut rs s { s with resp := r } :=
  ⟨fun q _ => by cases q <;> rfl, rfl, rfl, rfl⟩

end Sys2Proof.Machine
end

