-- ==== Sys2Proof/Laws/PerInstr.lean ====
section
/-! SUPPORT. Facts about each operation as syntax, one lemma per constructor. -/

namespace Sys2Proof.Laws

/-- The event word of an operation carries its OP and its OPD in their fields (R90), and its OP lies in the class of the
agent that takes the step (R91, R13). -/
def EncodedOp.Statement (i : Instr) : Prop :=
  opOf (encode i) = i.op ∧ opdOf (encode i) = i.opd ∧ opClass (opOf (encode i)) = some i.agent.opClass

theorem EncodedOp.reset : EncodedOp.Statement .reset :=
  ⟨opOf_encode _, opdOf_encode _, by rw [opOf_encode]; rfl⟩

theorem EncodedOp.samplerInit : EncodedOp.Statement .samplerInit :=
  ⟨opOf_encode _, opdOf_encode _, by rw [opOf_encode]; rfl⟩

theorem EncodedOp.seqStart : EncodedOp.Statement .seqStart :=
  ⟨opOf_encode _, opdOf_encode _, by rw [opOf_encode]; rfl⟩

theorem EncodedOp.mainStart : EncodedOp.Statement .mainStart :=
  ⟨opOf_encode _, opdOf_encode _, by rw [opOf_encode]; rfl⟩

theorem EncodedOp.busCmd (d : Word) : EncodedOp.Statement (.busCmd d) :=
  ⟨opOf_encode _, opdOf_encode _, by rw [opOf_encode]; rfl⟩

theorem EncodedOp.busStatreq : EncodedOp.Statement .busStatreq :=
  ⟨opOf_encode _, opdOf_encode _, by rw [opOf_encode]; rfl⟩

theorem EncodedOp.txDone (arb : Bool) (err : Bool) : EncodedOp.Statement (.txDone arb err) :=
  ⟨opOf_encode _, opdOf_encode _, by rw [opOf_encode]; rfl⟩

theorem EncodedOp.aggQuery (b : Bool) : EncodedOp.Statement (.aggQuery b) :=
  ⟨opOf_encode _, opdOf_encode _, by rw [opOf_encode]; rfl⟩

theorem EncodedOp.smpStatus : EncodedOp.Statement .smpStatus :=
  ⟨opOf_encode _, opdOf_encode _, by rw [opOf_encode]; rfl⟩

theorem EncodedOp.seqStatus : EncodedOp.Statement .seqStatus :=
  ⟨opOf_encode _, opdOf_encode _, by rw [opOf_encode]; rfl⟩

theorem EncodedOp.readTargets : EncodedOp.Statement .readTargets :=
  ⟨opOf_encode _, opdOf_encode _, by rw [opOf_encode]; rfl⟩

theorem EncodedOp.readSample (ch : BitVec 2) : EncodedOp.Statement (.readSample ch) :=
  ⟨opOf_encode _, opdOf_encode _, by rw [opOf_encode]; rfl⟩

theorem EncodedOp.trgTick : EncodedOp.Statement .trgTick :=
  ⟨opOf_encode _, opdOf_encode _, by rw [opOf_encode]; rfl⟩

theorem EncodedOp.conv (v : SampleWord) (err : Bool) (ovr : Bool) : EncodedOp.Statement (.conv v err ovr) :=
  ⟨opOf_encode _, opdOf_encode _, by rw [opOf_encode]; rfl⟩

theorem EncodedOp.settleTick : EncodedOp.Statement .settleTick :=
  ⟨opOf_encode _, opdOf_encode _, by rw [opOf_encode]; rfl⟩

theorem EncodedOp.isrSmp : EncodedOp.Statement .isrSmp :=
  ⟨opOf_encode _, opdOf_encode _, by rw [opOf_encode]; rfl⟩

theorem EncodedOp.isrSeq : EncodedOp.Statement .isrSeq :=
  ⟨opOf_encode _, opdOf_encode _, by rw [opOf_encode]; rfl⟩

theorem EncodedOp.isrBus : EncodedOp.Statement .isrBus :=
  ⟨opOf_encode _, opdOf_encode _, by rw [opOf_encode]; rfl⟩

theorem EncodedOp.mainStep : EncodedOp.Statement .mainStep :=
  ⟨opOf_encode _, opdOf_encode _, by rw [opOf_encode]; rfl⟩

end Sys2Proof.Laws
end

