-- ==== Sys2Proof/Laws/Run.lean ====
section
/-! SUPPORT. What a step of the machine can be, said once for all operations. -/

namespace Sys2Proof.Machine

/-- Every next state an operation can answer, with the guard that held (R10, R92). -/
theorem exec_next_cases {i : Instr} {s t : State} (h : exec i s = .next t) : s.cfg.legal = true ∧
    ((i = .reset ∧ t = { resetState s with resp := .nothing }) ∨
    (i = .samplerInit ∧ t = { samplerInit s with resp := .nothing }) ∨
    (i = .seqStart ∧ t = { seqStart s with resp := .nothing }) ∨
    (i = .mainStart ∧ t = { mainStart s with resp := .nothing }) ∨
    (∃ d, i = .busCmd d ∧ t = { arrive false d s with resp := .nothing }) ∨
    (i = .busStatreq ∧ t = { arrive true 0 s with resp := .nothing }) ∨
    (∃ a e, i = .txDone a e ∧ Busctl.bwait s.busctl = true ∧ t = { returnFromWait s with resp := .nothing }) ∨
    (∃ b, i = .aggQuery b ∧
      t = { s with stat := Stat.setSmpOvr false s.stat, resp := Response.ofOk (aggregateOk b s) }) ∨
    (∃ r, t = { s with resp := r } ∧ (i = .smpStatus ∨ i = .seqStatus ∨ i = .readTargets ∨ ∃ c, i = .readSample c)) ∨
    (i = .trgTick ∧ Smpctl.sst s.smpctl ≠ sstIdle ∧ t = { trgTick s with resp := .nothing }) ∨
    (∃ v e o, i = .conv v e o ∧ Smpctl.busy s.smpctl = true ∧ t = { convert v e o s with resp := .nothing }) ∨
    (i = .settleTick ∧ Seqctl.sten s.seqctl = true ∧ t = { settleTick s with resp := .nothing }) ∨
    (i = .isrSmp ∧ Smpctl.cpend s.smpctl = true ∧ Busctl.bwait s.busctl = false ∧
      t = { samplerHandler s with resp := .nothing }) ∨
    (i = .isrSeq ∧ Seqctl.stelapsed s.seqctl = true ∧ Busctl.bwait s.busctl = false ∧
      t = { settleHandler s with resp := .nothing }) ∨
    (i = .isrBus ∧ Busctl.mfull s.busctl = true ∧ Busctl.bwait s.busctl = false ∧
      t = { busHandler s with resp := .nothing }) ∨
    (i = .mainStep ∧ Mainctl.mrun s.mainctl = true ∧ Busctl.bwait s.busctl = false ∧
      ∃ u, microStep s = some u ∧ t = { u with resp := .nothing })) := by
  cases i with
  | reset => obtain ⟨h1, h2⟩ := (reset_next_iff _ _).mp h; simp [h1, h2]
  | samplerInit => obtain ⟨h1, h2⟩ := (samplerInit_next_iff _ _).mp h; simp [h1, h2]
  | seqStart => obtain ⟨h1, h2⟩ := (seqStart_next_iff _ _).mp h; simp [h1, h2]
  | mainStart => obtain ⟨h1, h2⟩ := (mainStart_next_iff _ _).mp h; simp [h1, h2]
  | busCmd d => obtain ⟨h1, h2⟩ := (busCmd_next_iff _ _ _).mp h; simp [h1, h2]
  | busStatreq => obtain ⟨h1, h2⟩ := (busStatreq_next_iff _ _).mp h; simp [h1, h2]
  | txDone a e => obtain ⟨h1, h2, h3⟩ := (txDone_next_iff _ _ _ _).mp h; simp [h1, h2, h3]
  | aggQuery b => obtain ⟨h1, h2⟩ := (aggQuery_next_iff _ _ _).mp h; simp [h1, h2]
  | smpStatus =>
    obtain ⟨h1, h2⟩ := (smpStatus_next_iff _ _).mp h
    exact ⟨h1, by iterate 8 right
                  exact .inl ⟨_, h2, by simp⟩⟩
  | seqStatus =>
    obtain ⟨h1, h2⟩ := (seqStatus_next_iff _ _).mp h
    exact ⟨h1, by iterate 8 right
                  exact .inl ⟨_, h2, by simp⟩⟩
  | readTargets =>
    obtain ⟨h1, h2⟩ := (readTargets_next_iff _ _).mp h
    exact ⟨h1, by iterate 8 right
                  exact .inl ⟨_, h2, by simp⟩⟩
  | readSample c =>
    obtain ⟨h1, v, -, h2⟩ := (readSample_next_iff _ _ _).mp h
    exact ⟨h1, by iterate 8 right
                  exact .inl ⟨_, h2, by simp⟩⟩
  | trgTick => obtain ⟨h1, h2, h3⟩ := (trgTick_next_iff _ _).mp h; simp [h1, h2, h3]
  | conv v e o =>
    obtain ⟨h1, h2, h3⟩ := (conv_next_iff _ _ _ _ _).mp h
    exact ⟨h1, by iterate 10 right
                  exact .inl ⟨v, e, o, rfl, h2, h3⟩⟩
  | settleTick => obtain ⟨h1, h2, h3⟩ := (settleTick_next_iff _ _).mp h; simp [h1, h2, h3]
  | isrSmp => obtain ⟨h1, ⟨h2, h3⟩, h4⟩ := (isrSmp_next_iff _ _).mp h; simp [h1, h2, h3, h4]
  | isrSeq => obtain ⟨h1, ⟨h2, h3⟩, h4⟩ := (isrSeq_next_iff _ _).mp h; simp [h1, h2, h3, h4]
  | isrBus => obtain ⟨h1, ⟨h2, h3⟩, h4⟩ := (isrBus_next_iff _ _).mp h; simp [h1, h2, h3, h4]
  | mainStep => obtain ⟨h1, ⟨h2, h3⟩, u, h4, h5⟩ := (mainStep_next_iff _ _).mp h; simp [h1, h2, h3, h4, h5]

/-- The state after a fetch: the word is taken from the trace and nothing else changes. -/
theorem fetch_eq_some_iff (s s' : State) (w : EventWord) :
    fetch s = some (w, s') ↔ ∃ rest, s.events = w :: rest ∧ s' = { s with events := rest } := by
  unfold fetch
  split
  · rename_i h
    simp [h]
  · rename_i v rest h
    constructor
    · intro hf
      cases hf
      exact ⟨rest, h, rfl⟩
    · rintro ⟨rest', h', rfl⟩
      rw [h] at h'
      cases h'
      rfl

/-- A step answers a next state exactly when the next word names an operation that answers it. -/
theorem step_next_iff (s t : State) : step s = .next t ↔
    ∃ w rest i, s.events = w :: rest ∧ decode w = .ok i ∧ exec i { s with events := rest } = .next t := by
  unfold step
  constructor
  · intro h
    split at h
    · cases h
    · rename_i w s' hf
      obtain ⟨rest, he, rfl⟩ := (fetch_eq_some_iff _ _ _).mp hf
      split at h
      · rename_i i hi
        exact ⟨w, rest, i, he, hi, h⟩
      · cases h
  · rintro ⟨w, rest, i, he, hi, h⟩
    simp [fetch, he, hi, h]

/-- Every step returns a response of the kind R101 gives its operation, so no line that a trace can show is refused for it. -/
theorem exec_responseFits {i : Instr} {s t : State} (h : exec i s = .next t) : responseFits i t.resp = true := by
  cases i with
  | reset => obtain ⟨-, rfl⟩ := (reset_next_iff _ _).mp h; rfl
  | samplerInit => obtain ⟨-, rfl⟩ := (samplerInit_next_iff _ _).mp h; rfl
  | seqStart => obtain ⟨-, rfl⟩ := (seqStart_next_iff _ _).mp h; rfl
  | mainStart => obtain ⟨-, rfl⟩ := (mainStart_next_iff _ _).mp h; rfl
  | busCmd d => obtain ⟨-, rfl⟩ := (busCmd_next_iff _ _ _).mp h; rfl
  | busStatreq => obtain ⟨-, rfl⟩ := (busStatreq_next_iff _ _).mp h; rfl
  | txDone a e => obtain ⟨-, -, rfl⟩ := (txDone_next_iff _ _ _ _).mp h; rfl
  | aggQuery b => obtain ⟨-, rfl⟩ := (aggQuery_next_iff _ _ _).mp h; rfl
  | smpStatus => obtain ⟨-, rfl⟩ := (smpStatus_next_iff _ _).mp h; rfl
  | seqStatus => obtain ⟨-, rfl⟩ := (seqStatus_next_iff _ _).mp h; rfl
  | readTargets => obtain ⟨-, rfl⟩ := (readTargets_next_iff _ _).mp h; rfl
  | readSample c => obtain ⟨-, _, -, rfl⟩ := (readSample_next_iff _ _ _).mp h; rfl
  | trgTick => obtain ⟨-, -, rfl⟩ := (trgTick_next_iff _ _).mp h; rfl
  | conv v e o => obtain ⟨-, -, rfl⟩ := (conv_next_iff _ _ _ _ _).mp h; rfl
  | settleTick => obtain ⟨-, -, rfl⟩ := (settleTick_next_iff _ _).mp h; rfl
  | isrSmp => obtain ⟨-, -, rfl⟩ := (isrSmp_next_iff _ _).mp h; rfl
  | isrSeq => obtain ⟨-, -, rfl⟩ := (isrSeq_next_iff _ _).mp h; rfl
  | isrBus => obtain ⟨-, -, rfl⟩ := (isrBus_next_iff _ _).mp h; rfl
  | mainStep => obtain ⟨-, -, _, -, rfl⟩ := (mainStep_next_iff _ _).mp h; rfl

end Sys2Proof.Machine
end

