-- ==== Sys2Proof/Laws/State.lean ====
section
/-! SUPPORT. The fields of the state after each shared update, every one true by definition, and the transmit output. -/

namespace Sys2Proof.Machine

/-- Entry of the sampler handler writes SMPCTL (R272). -/
@[simp] theorem takeHandler_sampler_fields (s : State) :
    (takeHandler .sampler s).ft = s.ft ∧ (takeHandler .sampler s).rt = s.rt ∧ (takeHandler .sampler s).stat = s.stat ∧
    (takeHandler .sampler s).smp0 = s.smp0 ∧ (takeHandler .sampler s).smp1 = s.smp1 ∧
    (takeHandler .sampler s).smp2 = s.smp2 ∧ (takeHandler .sampler s).buf0 = s.buf0 ∧
    (takeHandler .sampler s).buf1 = s.buf1 ∧ (takeHandler .sampler s).buf2 = s.buf2 ∧
    (takeHandler .sampler s).smpctl = Smpctl.setCovr false (Smpctl.setCerr false (Smpctl.setCpend false s.smpctl)) ∧
    (takeHandler .sampler s).trgcnt = s.trgcnt ∧ (takeHandler .sampler s).seqctl = s.seqctl ∧
    (takeHandler .sampler s).stcnt = s.stcnt ∧ (takeHandler .sampler s).out = s.out ∧
    (takeHandler .sampler s).mainctl = s.mainctl ∧ (takeHandler .sampler s).pv = s.pv ∧
    (takeHandler .sampler s).ftl = s.ftl ∧ (takeHandler .sampler s).busctl = s.busctl ∧
    (takeHandler .sampler s).mdata = s.mdata ∧ (takeHandler .sampler s).txw = s.txw ∧
    (takeHandler .sampler s).cfg = s.cfg ∧ (takeHandler .sampler s).resp = s.resp ∧
    (takeHandler .sampler s).events = s.events ∧ (takeHandler .sampler s).draws = s.draws :=
  ⟨rfl, rfl, rfl, rfl, rfl, rfl, rfl, rfl, rfl, rfl, rfl, rfl, rfl, rfl, rfl, rfl, rfl, rfl, rfl, rfl, rfl, rfl, rfl, rfl⟩

/-- Entry of the settle handler writes SEQCTL (R272). -/
@[simp] theorem takeHandler_sequencer_fields (s : State) :
    (takeHandler .sequencer s).ft = s.ft ∧ (takeHandler .sequencer s).rt = s.rt ∧
    (takeHandler .sequencer s).stat = s.stat ∧ (takeHandler .sequencer s).smp0 = s.smp0 ∧
    (takeHandler .sequencer s).smp1 = s.smp1 ∧ (takeHandler .sequencer s).smp2 = s.smp2 ∧
    (takeHandler .sequencer s).buf0 = s.buf0 ∧ (takeHandler .sequencer s).buf1 = s.buf1 ∧
    (takeHandler .sequencer s).buf2 = s.buf2 ∧ (takeHandler .sequencer s).smpctl = s.smpctl ∧
    (takeHandler .sequencer s).trgcnt = s.trgcnt ∧
    (takeHandler .sequencer s).seqctl = Seqctl.setStelapsed false s.seqctl ∧
    (takeHandler .sequencer s).stcnt = s.stcnt ∧ (takeHandler .sequencer s).out = s.out ∧
    (takeHandler .sequencer s).mainctl = s.mainctl ∧ (takeHandler .sequencer s).pv = s.pv ∧
    (takeHandler .sequencer s).ftl = s.ftl ∧ (takeHandler .sequencer s).busctl = s.busctl ∧
    (takeHandler .sequencer s).mdata = s.mdata ∧ (takeHandler .sequencer s).txw = s.txw ∧
    (takeHandler .sequencer s).cfg = s.cfg ∧ (takeHandler .sequencer s).resp = s.resp ∧
    (takeHandler .sequencer s).events = s.events ∧ (takeHandler .sequencer s).draws = s.draws :=
  ⟨rfl, rfl, rfl, rfl, rfl, rfl, rfl, rfl, rfl, rfl, rfl, rfl, rfl, rfl, rfl, rfl, rfl, rfl, rfl, rfl, rfl, rfl, rfl, rfl⟩

/-- Entry of the bus handler empties the mailbox (R174, R272). -/
@[simp] theorem takeHandler_bus_fields (s : State) :
    (takeHandler .bus s).ft = s.ft ∧ (takeHandler .bus s).rt = s.rt ∧ (takeHandler .bus s).stat = s.stat ∧
    (takeHandler .bus s).smp0 = s.smp0 ∧ (takeHandler .bus s).smp1 = s.smp1 ∧ (takeHandler .bus s).smp2 = s.smp2 ∧
    (takeHandler .bus s).buf0 = s.buf0 ∧ (takeHandler .bus s).buf1 = s.buf1 ∧ (takeHandler .bus s).buf2 = s.buf2 ∧
    (takeHandler .bus s).smpctl = s.smpctl ∧ (takeHandler .bus s).trgcnt = s.trgcnt ∧
    (takeHandler .bus s).seqctl = s.seqctl ∧ (takeHandler .bus s).stcnt = s.stcnt ∧ (takeHandler .bus s).out = s.out ∧
    (takeHandler .bus s).mainctl = s.mainctl ∧ (takeHandler .bus s).pv = s.pv ∧ (takeHandler .bus s).ftl = s.ftl ∧
    (takeHandler .bus s).busctl = Busctl.setMkind false (Busctl.setMfull false s.busctl) ∧
    (takeHandler .bus s).mdata = 0 ∧ (takeHandler .bus s).txw = s.txw ∧ (takeHandler .bus s).cfg = s.cfg ∧
    (takeHandler .bus s).resp = s.resp ∧ (takeHandler .bus s).events = s.events ∧
    (takeHandler .bus s).draws = s.draws :=
  ⟨rfl, rfl, rfl, rfl, rfl, rfl, rfl, rfl, rfl, rfl, rfl, rfl, rfl, rfl, rfl, rfl, rfl, rfl, rfl, rfl, rfl, rfl, rfl, rfl⟩

/-- Emitting a status word writes TXW and BUSCTL (R178). -/
@[simp] theorem emitTx_fields (w : Word) (s : State) :
    (emitTx w s).ft = s.ft ∧ (emitTx w s).rt = s.rt ∧ (emitTx w s).stat = s.stat ∧ (emitTx w s).smp0 = s.smp0 ∧
    (emitTx w s).smp1 = s.smp1 ∧ (emitTx w s).smp2 = s.smp2 ∧ (emitTx w s).buf0 = s.buf0 ∧
    (emitTx w s).buf1 = s.buf1 ∧ (emitTx w s).buf2 = s.buf2 ∧ (emitTx w s).smpctl = s.smpctl ∧
    (emitTx w s).trgcnt = s.trgcnt ∧ (emitTx w s).seqctl = s.seqctl ∧ (emitTx w s).stcnt = s.stcnt ∧
    (emitTx w s).out = s.out ∧ (emitTx w s).mainctl = s.mainctl ∧ (emitTx w s).pv = s.pv ∧ (emitTx w s).ftl = s.ftl ∧
    (emitTx w s).busctl = Busctl.setBwait true (Busctl.setTxv true s.busctl) ∧ (emitTx w s).mdata = s.mdata ∧
    (emitTx w s).txw = w ∧ (emitTx w s).cfg = s.cfg ∧ (emitTx w s).resp = s.resp ∧ (emitTx w s).events = s.events ∧
    (emitTx w s).draws = s.draws :=
  ⟨rfl, rfl, rfl, rfl, rfl, rfl, rfl, rfl, rfl, rfl, rfl, rfl, rfl, rfl, rfl, rfl, rfl, rfl, rfl, rfl, rfl, rfl, rfl, rfl⟩

/-- Returning from the transmit wait writes BUSCTL (R180). -/
@[simp] theorem returnFromWait_fields (s : State) :
    (returnFromWait s).ft = s.ft ∧ (returnFromWait s).rt = s.rt ∧ (returnFromWait s).stat = s.stat ∧
    (returnFromWait s).smp0 = s.smp0 ∧ (returnFromWait s).smp1 = s.smp1 ∧ (returnFromWait s).smp2 = s.smp2 ∧
    (returnFromWait s).buf0 = s.buf0 ∧ (returnFromWait s).buf1 = s.buf1 ∧ (returnFromWait s).buf2 = s.buf2 ∧
    (returnFromWait s).smpctl = s.smpctl ∧ (returnFromWait s).trgcnt = s.trgcnt ∧
    (returnFromWait s).seqctl = s.seqctl ∧ (returnFromWait s).stcnt = s.stcnt ∧ (returnFromWait s).out = s.out ∧
    (returnFromWait s).mainctl = s.mainctl ∧ (returnFromWait s).pv = s.pv ∧ (returnFromWait s).ftl = s.ftl ∧
    (returnFromWait s).busctl = Busctl.setTxv false (Busctl.setBwait false s.busctl) ∧
    (returnFromWait s).mdata = s.mdata ∧ (returnFromWait s).txw = s.txw ∧ (returnFromWait s).cfg = s.cfg ∧
    (returnFromWait s).resp = s.resp ∧ (returnFromWait s).events = s.events ∧ (returnFromWait s).draws = s.draws :=
  ⟨rfl, rfl, rfl, rfl, rfl, rfl, rfl, rfl, rfl, rfl, rfl, rfl, rfl, rfl, rfl, rfl, rfl, rfl, rfl, rfl, rfl, rfl, rfl, rfl⟩

/-- Decoding a Command writes FT and RT (R175). -/
@[simp] theorem decodeCommand_fields (d : Word) (s : State) :
    (decodeCommand d s).ft = (if (focField d).toNat ≤ s.cfg.focusMax then focField d else s.ft) ∧
    (decodeCommand d s).rt = (if validPhase (rotField d) then rotField d else s.rt) ∧
    (decodeCommand d s).stat = s.stat ∧ (decodeCommand d s).smp0 = s.smp0 ∧ (decodeCommand d s).smp1 = s.smp1 ∧
    (decodeCommand d s).smp2 = s.smp2 ∧ (decodeCommand d s).buf0 = s.buf0 ∧ (decodeCommand d s).buf1 = s.buf1 ∧
    (decodeCommand d s).buf2 = s.buf2 ∧ (decodeCommand d s).smpctl = s.smpctl ∧
    (decodeCommand d s).trgcnt = s.trgcnt ∧ (decodeCommand d s).seqctl = s.seqctl ∧
    (decodeCommand d s).stcnt = s.stcnt ∧ (decodeCommand d s).out = s.out ∧ (decodeCommand d s).mainctl = s.mainctl ∧
    (decodeCommand d s).pv = s.pv ∧ (decodeCommand d s).ftl = s.ftl ∧ (decodeCommand d s).busctl = s.busctl ∧
    (decodeCommand d s).mdata = s.mdata ∧ (decodeCommand d s).txw = s.txw ∧ (decodeCommand d s).cfg = s.cfg ∧
    (decodeCommand d s).resp = s.resp ∧ (decodeCommand d s).events = s.events ∧ (decodeCommand d s).draws = s.draws :=
  ⟨rfl, rfl, rfl, rfl, rfl, rfl, rfl, rfl, rfl, rfl, rfl, rfl, rfl, rfl, rfl, rfl, rfl, rfl, rfl, rfl, rfl, rfl, rfl, rfl⟩

/-- A commit writes the three visible words (R147). -/
@[simp] theorem commit_fields (v : SampleWord) (s : State) :
    (commit v s).ft = s.ft ∧ (commit v s).rt = s.rt ∧ (commit v s).stat = s.stat ∧ (commit v s).smp0 = s.buf0 ∧
    (commit v s).smp1 = s.buf1 ∧ (commit v s).smp2 = v ∧ (commit v s).buf0 = s.buf0 ∧ (commit v s).buf1 = s.buf1 ∧
    (commit v s).buf2 = s.buf2 ∧ (commit v s).smpctl = s.smpctl ∧ (commit v s).trgcnt = s.trgcnt ∧
    (commit v s).seqctl = s.seqctl ∧ (commit v s).stcnt = s.stcnt ∧ (commit v s).out = s.out ∧
    (commit v s).mainctl = s.mainctl ∧ (commit v s).pv = s.pv ∧ (commit v s).ftl = s.ftl ∧
    (commit v s).busctl = s.busctl ∧ (commit v s).mdata = s.mdata ∧ (commit v s).txw = s.txw ∧
    (commit v s).cfg = s.cfg ∧ (commit v s).resp = s.resp ∧ (commit v s).events = s.events ∧
    (commit v s).draws = s.draws :=
  ⟨rfl, rfl, rfl, rfl, rfl, rfl, rfl, rfl, rfl, rfl, rfl, rfl, rfl, rfl, rfl, rfl, rfl, rfl, rfl, rfl, rfl, rfl, rfl, rfl⟩

/-- Placing an event word writes the trace only (log 4). -/
@[simp] theorem placeEvent_fields (w : EventWord) (s : State) :
    (placeEvent w s).ft = s.ft ∧ (placeEvent w s).rt = s.rt ∧ (placeEvent w s).stat = s.stat ∧
    (placeEvent w s).smp0 = s.smp0 ∧ (placeEvent w s).smp1 = s.smp1 ∧ (placeEvent w s).smp2 = s.smp2 ∧
    (placeEvent w s).buf0 = s.buf0 ∧ (placeEvent w s).buf1 = s.buf1 ∧ (placeEvent w s).buf2 = s.buf2 ∧
    (placeEvent w s).smpctl = s.smpctl ∧ (placeEvent w s).trgcnt = s.trgcnt ∧ (placeEvent w s).seqctl = s.seqctl ∧
    (placeEvent w s).stcnt = s.stcnt ∧ (placeEvent w s).out = s.out ∧ (placeEvent w s).mainctl = s.mainctl ∧
    (placeEvent w s).pv = s.pv ∧ (placeEvent w s).ftl = s.ftl ∧ (placeEvent w s).busctl = s.busctl ∧
    (placeEvent w s).mdata = s.mdata ∧ (placeEvent w s).txw = s.txw ∧ (placeEvent w s).cfg = s.cfg ∧
    (placeEvent w s).resp = s.resp ∧ (placeEvent w s).events = w :: s.events ∧ (placeEvent w s).draws = s.draws :=
  ⟨rfl, rfl, rfl, rfl, rfl, rfl, rfl, rfl, rfl, rfl, rfl, rfl, rfl, rfl, rfl, rfl, rfl, rfl, rfl, rfl, rfl, rfl, rfl, rfl⟩

/-- RESET writes every register and keeps the configuration and the trace (R300, log 18). -/
@[simp] theorem resetState_fields (s : State) :
    (resetState s).ft = 0 ∧ (resetState s).rt = 0 ∧ (resetState s).stat = 0x120 ∧
    (resetState s).smp0 = Config.resetSample s.draws ∧ (resetState s).smp1 = Config.resetSample (s.draws + 1) ∧
    (resetState s).smp2 = Config.resetSample (s.draws + 2) ∧ (resetState s).buf0 = Config.resetSample (s.draws + 3) ∧
    (resetState s).buf1 = Config.resetSample (s.draws + 4) ∧ (resetState s).buf2 = Config.resetSample (s.draws + 5) ∧
    (resetState s).smpctl = 0 ∧ (resetState s).trgcnt = 0 ∧ (resetState s).seqctl = 0 ∧ (resetState s).stcnt = 0 ∧
    (resetState s).out = 0 ∧ (resetState s).mainctl = 0 ∧ (resetState s).pv = 0 ∧ (resetState s).ftl = 0 ∧
    (resetState s).busctl = 0 ∧ (resetState s).mdata = 0 ∧ (resetState s).txw = 0 ∧ (resetState s).cfg = s.cfg ∧
    (resetState s).resp = .nothing ∧ (resetState s).events = s.events ∧ (resetState s).draws = s.draws + 6 :=
  ⟨rfl, rfl, rfl, rfl, rfl, rfl, rfl, rfl, rfl, rfl, rfl, rfl, rfl, rfl, rfl, rfl, rfl, rfl, rfl, rfl, rfl, rfl, rfl, rfl⟩

/-! What is on the transmit output (R98, R178, R180). -/

@[simp] theorem transmitted_emitTx (w : Word) (s : State) : transmitted (emitTx w s) = some (statusMessage w) := by
  simp [transmitted]

@[simp] theorem transmitted_returnFromWait (s : State) : transmitted (returnFromWait s) = none := by
  simp [transmitted]

end Sys2Proof.Machine
end

