-- ==== Sys2Proof/Tests/Slice0.lean ====
section
/-! SUPPORT. Tests. Expected results are those of 95_test_vectors.md (its vector numbers are in the docstrings) or are
written out from the bit patterns of 30_encoding.md R93; none is the model's own answer. The `witness_` theorems show that the
hypotheses of each statement in Certificates/Slice0/Obligations.lean can be met. -/

namespace Sys2Proof.Tests

open Sys2Proof.Machine

/-- A state with every register 0, in the configuration of the test vectors. -/
def zero : State :=
  { ft := 0, rt := 0, stat := 0, smp0 := 0, smp1 := 0, smp2 := 0, buf0 := 0, buf1 := 0, buf2 := 0, smpctl := 0, trgcnt := 0,
    seqctl := 0, stcnt := 0, out := 0, mainctl := 0, pv := 0, ftl := 0, busctl := 0, mdata := 0, txw := 0,
    cfg := Config.default, resp := .nothing, events := [], draws := 0 }

/-- A state with every register bit 1. -/
def ones : State :=
  { ft := -1, rt := -1, stat := -1, smp0 := -1, smp1 := -1, smp2 := -1, buf0 := -1, buf1 := -1, buf2 := -1, smpctl := -1,
    trgcnt := -1, seqctl := -1, stcnt := -1, out := -1, mainctl := -1, pv := -1, ftl := -1, busctl := -1, mdata := -1,
    txw := -1, cfg := Config.default, resp := .nothing, events := [], draws := 0 }

/-- The configuration of B7: focus targets limited to 200. -/
def limited : State := { zero with cfg := { Config.default with focusMax := 200, scale := 21 } }

/-- The state after one operation, if it has a step. -/
def after (i : Instr) (s : State) : Option State :=
  match exec i s with
  | .next t => some t
  | .fault _ => none
  | .refused _ => none

/-- The main loop running, at micro-step `n`. -/
def atMpc (n : Nat) (s : State) : State := { s with mainctl := Mainctl.setMpc (BitVec.ofNat 4 n) (s.mainctl ||| 1) }

/-! Well-formedness (R94, R95): the one check, on both sides of its boundary. -/

theorem test_channel_3_is_ill_formed : (Instr.readSample 3).wellFormed = false ∧ (Instr.readSample 2).wellFormed = true := by
  decide

theorem test_channel_3_is_refused : decode (encode (.readSample 3)) = .error .reservedChannel := by decide

/-! Decoding: one word per operation, written out from its pattern in R93. -/

theorem test_decode_lifecycle :
    decode 0b0000000100000000000000000000000000000000#40 = .ok .reset ∧
    decode 0b0000001000000000000000000000000000000000#40 = .ok .samplerInit ∧
    decode 0b0000001100000000000000000000000000000000#40 = .ok .seqStart ∧
    decode 0b0000010000000000000000000000000000000000#40 = .ok .mainStart := by decide

theorem test_decode_bus :
    decode 0b0000100011011110101011010011001000000010#40 = .ok (.busCmd 0xDEAD3202) ∧
    decode 0b0000100100000000000000000000000000000000#40 = .ok .busStatreq ∧
    decode 0b0000101000000000000000000000000000000001#40 = .ok (.txDone true false) ∧
    decode 0b0000101000000000000000000000000000000010#40 = .ok (.txDone false true) := by decide

theorem test_decode_queries :
    decode 0b0000110000000000000000000000000000000001#40 = .ok (.aggQuery true) ∧
    decode 0b0000110100000000000000000000000000000000#40 = .ok .smpStatus ∧
    decode 0b0000111000000000000000000000000000000000#40 = .ok .seqStatus ∧
    decode 0b0000111100000000000000000000000000000000#40 = .ok .readTargets ∧
    decode 0b0001000000000000000000000000000000000010#40 = .ok (.readSample 2) := by decide

theorem test_decode_hardware :
    decode 0b0010000000000000000000000000000000000000#40 = .ok .trgTick ∧
    decode 0b0010000100000000000000011010000000000001#40 = .ok (.conv 0xA001 true false) ∧
    decode 0b0010000100000000000000100101111111111110#40 = .ok (.conv 0x5FFE false true) ∧
    decode 0b0010001000000000000000000000000000000000#40 = .ok .settleTick := by decide

theorem test_decode_core :
    decode 0b0011000000000000000000000000000000000000#40 = .ok .isrSmp ∧
    decode 0b0011000100000000000000000000000000000000#40 = .ok .isrSeq ∧
    decode 0b0011001000000000000000000000000000000000#40 = .ok .isrBus ∧
    decode 0b0011100000000000000000000000000000000000#40 = .ok .mainStep := by decide

/-- Table E: the words that are refused. -/
theorem test_decode_refusals :
    decode 0x0000000000#40 = .error .undefinedOp ∧ decode 0x0500000000#40 = .error .undefinedOp ∧
    decode 0x0B00000000#40 = .error .undefinedOp ∧ decode 0x2300000000#40 = .error .undefinedOp ∧
    decode 0x3300000000#40 = .error .undefinedOp ∧ decode 0x3900000000#40 = .error .undefinedOp ∧
    decode 0xFF00000000#40 = .error .undefinedOp ∧ decode 0x0100000001#40 = .error .reservedOperandBit ∧
    decode 0x0A00000004#40 = .error .reservedOperandBit ∧ decode 0x0C00000002#40 = .error .reservedOperandBit ∧
    decode 0x2100040000#40 = .error .reservedOperandBit ∧ decode 0x1000000003#40 = .error .reservedChannel := by decide

/-- The encodings of programs P1 and P3, written by the encoder. -/
theorem test_encode_words :
    encode (.conv 0x0320 false false) = 0x2100000320#40 ∧ encode (.conv 0x0101 true false) = 0x2100010101#40 ∧
    encode (.txDone true true) = 0x0A00000003#40 ∧ encode (.busCmd 0x3202) = 0x0800003202#40 ∧
    encode .mainStep = 0x3800000000#40 := by decide

/-- The word of the opcode table as the host numbers it, and a step that runs it. -/
theorem test_table_word :
    decodeTableWord 40 0x0400000000 = some .mainStart ∧
    (match step (zero.withFetchWord 40 0x0400000000) with
      | .next t => some (t.mainctl, t.events)
      | .fault _ => none
      | .refused _ => none) = some (1#32, []) := by decide

/-! Reset. -/

/-- R-1. -/
theorem test_reset_values :
    (after .reset ones).map (fun t => [t.ft, t.rt, t.stat, t.smpctl, t.trgcnt, t.seqctl, t.stcnt, t.out, t.mainctl, t.pv, t.ftl,
      t.busctl, t.mdata, t.txw]) = some [0, 0, 0x120, 0, 0, 0, 0, 0, 0, 0, 0, 0, 0, 0] := by decide

/-- R-2: what is not enabled after reset. -/
theorem test_not_enabled_after_reset :
    [Instr.trgTick, .conv 0 false false, .settleTick, .mainStep, .isrSmp, .isrSeq, .isrBus, .txDone false false].map
      (fun i => enabled i State.reset) = List.replicate 8 false := by decide

/-! Position Sampler. -/

/-- K: both scales. -/
theorem test_scale :
    [0x0000, 0x000F, 0x0010, 0x0014, 0x0310, 0x0320, 0x0330, 0xF320, 0x0FFF, 0xFFFF, 0x1000].map (scale Config.default)
      = [0, 0, 1, 1, 49, 50, 51, 50, 255, 255, 0] ∧
    [0x0000, 0x000F, 0x0010, 0x0014, 0x0310, 0x0320, 0x0330, 0xF320, 0x0FFF, 0xFFFF, 0x1000].map
      (scale { Config.default with scale := 20 }) = [0, 0, 0, 1, 39, 40, 40, 40, 204, 204, 0] := by decide

/-- S2, S3, S24. -/
theorem test_sampler_init :
    (after .samplerInit { zero with trgcnt := 1 }).map (fun t => (t.smpctl, t.trgcnt)) = some (1, 0) ∧
    (after .samplerInit { zero with smpctl := 1, trgcnt := 1 }).map (fun t => (t.smpctl, t.trgcnt)) = some (1, 1) ∧
    (after .samplerInit { zero with smpctl := 0x12 }).map (fun t => t.smpctl) = some 0x12 := by decide

/-- S1, S4, S5, S10. -/
theorem test_trg_tick :
    after .trgTick zero = none ∧
    (after .trgTick { zero with smpctl := 1 }).map (fun t => (t.trgcnt, t.smpctl)) = some (1, 1) ∧
    (after .trgTick { zero with smpctl := 1, trgcnt := 1 }).map (fun t => (t.trgcnt, t.smpctl)) = some (0, 0x12) ∧
    (after .trgTick { zero with smpctl := 0x16, trgcnt := 1 }).map (fun t => (t.trgcnt, t.smpctl)) = some (0, 0x96) := by decide

/-- S23: a period of one tick. -/
theorem test_trg_tick_period_one :
    (after .trgTick { zero with smpctl := 1, cfg := { Config.default with samplePeriod := 1 } }).map
      (fun t => (t.trgcnt, t.smpctl)) = some (0, 0x12) := by decide

/-- S6, S7, and the last word of S8. -/
theorem test_conv :
    after (.conv 0x0320 false false) zero = none ∧
    (after (.conv 0x0320 false false) { zero with smpctl := 0x12 }).map (fun t => (t.buf0, t.smpctl, t.smp0)) =
      some (0x0320, 0x16, 0) ∧
    (after (.conv 0x0FFE false false) { zero with smpctl := 0x1A, buf0 := 0x0330, buf1 := 0x0101 }).map
      (fun t => (t.smp0, t.smp1, t.smp2, t.smpctl)) = some (0x0330, 0x0101, 0x0FFE, 0x102) := by decide

/-- The last words of S9 (no commit after a transfer error), of S11 (overrun reported) and of S12 (merged completion). -/
theorem test_conv_error_and_merge :
    (after (.conv 0x0FFE false false) { zero with smpctl := 0x5A, buf0 := 0x0330, buf1 := 0x0101, smp0 := 0x0320 }).map
      (fun t => (t.smp0, t.buf2, t.smpctl)) = some (0x0320, 0x0FFE, 0x302) ∧
    (after (.conv 0x0FFF false false) { zero with smpctl := 0x9A, buf0 := 0x0320 }).map (fun t => (t.smp0, t.smpctl)) =
      some (0x0320, 0x502) ∧
    (after (.conv 0x0FFF false false) { zero with smpctl := 0x11A, buf0 := 0x0340 }).map (fun t => (t.smp0, t.smpctl)) =
      some (0x0340, 0x502) := by decide

/-- S13, S14, S15, S16. -/
theorem test_isr_smp :
    (after .isrSmp { zero with smpctl := 0x102, stat := 0x20, smp0 := 0x0320 }).map (fun t => (t.ft, t.stat, t.smpctl)) =
      some (50, 0, 0x22) ∧
    (after .isrSmp { zero with smpctl := 0x302, stat := 0x20, ft := 7 }).map (fun t => (t.ft, t.stat, t.smpctl)) =
      some (7, 0x30, 0x02) ∧
    (after .isrSmp { zero with smpctl := 0x102, stat := 0x30, ft := 7, smp0 := 0x0640 }).map (fun t => (t.ft, t.stat, t.smpctl)) =
      some (100, 0, 0x22) ∧
    (after .isrSmp { zero with smpctl := 0x122, ft := 50, smp0 := 0x0FFF }).map (fun t => (t.ft, t.stat, t.smpctl)) =
      some (50, 0, 0x22) := by decide

/-- S17, S18, S19. -/
theorem test_isr_smp_overrun :
    (after .isrSmp { zero with smpctl := 0x722 }).map (fun t => (t.stat, t.smpctl)) = some (0x18, 0x22) ∧
    (after .isrSmp { zero with smpctl := 0x502, stat := 0x20, smp0 := 0x0320 }).map (fun t => (t.ft, t.stat)) = some (50, 0x08) ∧
    after .isrSmp { zero with smpctl := 0x102, busctl := 0x4 } = none := by decide

/-- S20, S21, S22. -/
theorem test_smp_status :
    (after .smpStatus { zero with stat := 0x120 }).map (fun t => t.resp) = some (.status 1) ∧
    (after .smpStatus { zero with stat := 0x08 }).map (fun t => (t.resp, t.stat)) = some (.status 0, 0x08) ∧
    (after .smpStatus { zero with stat := 0x10 }).map (fun t => t.resp) = some (.status 1) := by decide

/-! Bus port. -/

/-- B1, B2, B12. -/
theorem test_bus_cmd :
    (after (.busCmd 0x3202) zero).map (fun t => (t.busctl, t.mdata, t.ft, t.rt)) = some (1, 0x3202, 0, 0) ∧
    (after (.busCmd 0x1401) { zero with busctl := 1, mdata := 0x3202 }).map (fun t => t.mdata) = some 0x3202 ∧
    (after (.busCmd 0x0001) { zero with busctl := 0xC }).map (fun t => (t.busctl, t.mdata)) = some (0xD, 1) := by decide

/-- B3, B4. -/
theorem test_bus_statreq :
    (after .busStatreq { zero with busctl := 1, mdata := 5 }).map (fun t => (t.busctl, t.mdata)) = some (1, 5) ∧
    (after .busStatreq zero).map (fun t => (t.busctl, t.mdata)) = some (3, 0) := by decide

/-- W1, W2, W7, B6 and, with the focus targets limited to 200, B7 and B8. -/
theorem test_isr_bus_command :
    [0x3202, 0x3205, 0xFF03, 0x0005, 0x14FF, 0x3280, 0xDEAD3201].map
      (fun d => (after .isrBus { zero with busctl := 1, mdata := d, ft := 50, rt := 2 }).map (fun t => (t.ft, t.rt, t.busctl)))
      = [some (50, 2, 0), some (50, 2, 0), some (255, 2, 0), some (0, 2, 0), some (20, 2, 0), some (50, 2, 0),
        some (50, 1, 0)] ∧
    [0xC901, 0xC802].map
      (fun d => (after .isrBus { limited with busctl := 1, mdata := d, ft := 10 }).map (fun t => (t.ft, t.rt))) =
      [some (10, 1), some (200, 2)] := by decide

/-- W3, B9, B13. -/
theorem test_isr_bus_status_request :
    (after .isrBus { zero with busctl := 3, rt := 2, smp0 := 0x0320 }).map (fun t => (t.txw, t.busctl)) = some (0x3202, 0xC) ∧
    (after .isrBus { zero with busctl := 3, rt := 1, smp0 := 0xFFFF }).map (fun t => (t.txw, t.busctl)) = some (0xFF01, 0xC) ∧
    (after .isrBus { zero with busctl := 3, rt := 2, smp0 := 0x0320 }).map transmitted = some (some ⟨.status, 0x3202, 0⟩) ∧
    after .isrBus { zero with busctl := 0xD } = none := by decide

/-- B14, B15. -/
theorem test_tx_done :
    (after (.txDone true true) { zero with busctl := 0xC, txw := 0xFF01, stat := 0x120 }).map
      (fun t => (t.busctl, t.txw, t.stat)) = some (0, 0xFF01, 0x120) ∧
    after (.txDone false false) zero = none := by decide

/-- B16 to B20. -/
theorem test_agg_query :
    [(0, false), (8, false), (0, true), (8, true), (0x30, false)].map
      (fun c => (after (.aggQuery c.2) { zero with stat := c.1 }).map (fun t => (t.resp, t.stat))) =
      [some (.status 0, 0), some (.status 1, 0), some (.status 1, 0), some (.status 1, 0), some (.status 0, 0x30)] := by decide

/-- B10, B11: what the transmit wait blocks and what it does not. -/
theorem test_transmit_wait :
    [Instr.isrSmp, .isrSeq, .mainStep, .trgTick].map
      (fun i => enabled i { zero with busctl := 0xC, smpctl := 0x102, seqctl := 0x20, mainctl := 1 }) =
      [false, false, false, true] := by decide

/-! Rotary Phase Sequencer. -/

/-- Q1, Q2. -/
theorem test_seq_start :
    (after .seqStart { zero with stat := 0x120, stcnt := 9 }).map (fun t => (t.seqctl, t.out, t.stcnt, t.stat)) =
      some (0x1C, 0x28, 0, 0x120) ∧
    (after .seqStart { zero with seqctl := 0xA }).map (fun t => (t.seqctl, t.out)) = some (0xA, 0) := by decide

/-- Q3, Q4, Q5, Q8. -/
theorem test_settle_tick :
    (after .settleTick { zero with seqctl := 0x18, stcnt := 1 }).map (fun t => (t.stcnt, t.seqctl)) = some (2, 0x18) ∧
    (after .settleTick { zero with seqctl := 0x18, stcnt := 2 }).map (fun t => (t.stcnt, t.seqctl)) = some (3, 0x28) ∧
    after .settleTick { zero with seqctl := 0x08 } = none ∧
    (after .settleTick { zero with seqctl := 0x10, cfg := { Config.default with settleTicks := 1 } }).map
      (fun t => (t.stcnt, t.seqctl)) = some (1, 0x20) := by decide

/-- Q6, Q7. -/
theorem test_isr_seq :
    (after .isrSeq { zero with seqctl := 0x2D, out := 0x2A, stat := 0x120 }).map (fun t => (t.seqctl, t.out, t.stat)) =
      some (0x09, 0x02, 0x20) ∧
    after .isrSeq { zero with seqctl := 0x18 } = none := by decide

/-- Q9, Q10, Q11. -/
theorem test_seq_status :
    (after .seqStatus { zero with stat := 0x120 }).map (fun t => t.resp) = some (.status 1) ∧
    (after .seqStatus { zero with stat := 0x20 }).map (fun t => t.resp) = some (.status 0) ∧
    (after .seqStatus { zero with seqctl := 0x1C }).map (fun t => t.resp) = some (.status 0) := by decide

/-- W10: the direction table. -/
theorem test_direction_table :
    dirTable .phase1 .phase2 = some (.rev, .fwd) ∧ dirTable .phase2 .phase1 = some (.fwd, .rev) ∧
    dirTable .phase1 .phase0 = some (.rev, .idle) ∧ dirTable .phase2 .phase0 = some (.idle, .rev) ∧
    dirTable .phase0 .phase1 = some (.fwd, .idle) ∧ dirTable .phase0 .phase2 = some (.idle, .fwd) := by decide

/-- W4: setPhase from Phase0 to Phase2, micro-step by micro-step; Q13 and Q15. -/
theorem test_main_step_set_phase :
    (after .mainStep (atMpc 6 { zero with mainctl := 0x200 })).map (fun t => t.mainctl) = some 0x271 ∧
    (after .mainStep (atMpc 6 { zero with mainctl := 0x100, seqctl := 0x11 })).map (fun t => (t.mainctl, t.seqctl)) =
      some (0x101, 0x11) ∧
    (after .mainStep (atMpc 7 { zero with seqctl := 0x20, stcnt := 3 })).map (fun t => (t.mainctl, t.seqctl, t.stcnt)) =
      some (0x81, 0x20, 0) ∧
    (after .mainStep (atMpc 8 { zero with mainctl := 0x200, out := 0x2A })).map (fun t => (t.mainctl, t.out)) =
      some (0x291, 0x12) ∧
    (after .mainStep (atMpc 9 { zero with mainctl := 0x200 })).map (fun t => (t.mainctl, t.seqctl)) = some (0x2A1, 0x6) ∧
    (after .mainStep (atMpc 10 { zero with mainctl := 0x200, seqctl := 0x6 })).map (fun t => (t.mainctl, t.seqctl)) =
      some (0x201, 0x16) := by decide

/-! Focus Servo Loop and main loop. -/

/-- W9. -/
theorem test_comparator :
    [(51, 50), (49, 50), (50, 50), (0, 0), (255, 255), (255, 0), (0, 255), (1, 0), (254, 255)].map (fun c => focusCmp c.1 c.2) =
      [.rev, .fwd, .idle, .idle, .idle, .rev, .fwd, .rev, .fwd] := by decide

/-- M1, M2, M3. -/
theorem test_main_start :
    (after .mainStart zero).map (fun t => t.mainctl) = some 1 ∧
    (after .mainStart { zero with mainctl := 0x31 }).map (fun t => t.mainctl) = some 0x31 ∧
    after .mainStep zero = none := by decide

/-- M5 to M12. -/
theorem test_main_step_servo :
    (after .mainStep (atMpc 0 { zero with smp0 := 0x0330 })).map (fun t => (t.pv, t.mainctl)) = some (51, 0x11) ∧
    (after .mainStep (atMpc 1 { zero with ft := 50 })).map (fun t => (t.ftl, t.mainctl)) = some (50, 0x21) ∧
    (after .mainStep (atMpc 2 zero)).map (fun t => t.mainctl) = some 0x33 ∧
    (after .mainStep (atMpc 3 { zero with mainctl := 2, pv := 51, ftl := 50 })).map (fun t => (t.out, t.mainctl)) =
      some (2, 0x43) ∧
    (after .mainStep (atMpc 3 { zero with pv := 51, ftl := 50, out := 1 })).map (fun t => (t.out, t.mainctl)) = some (1, 0x41) ∧
    (after .mainStep (atMpc 4 { zero with stat := 0x100, mainctl := 2 })).map (fun t => t.mainctl) = some 0x51 ∧
    (after .mainStep (atMpc 5 { zero with rt := 2 })).map (fun t => t.mainctl) = some 0x01 ∧
    (after .mainStep (atMpc 5 { zero with rt := 1, mainctl := 2 })).map (fun t => t.mainctl) = some 0x163 := by decide

/-! Host reads. -/

/-- T1, T2. -/
theorem test_read_targets :
    (after .readTargets zero).map (fun t => t.resp) = some (.word 0) ∧
    (after .readTargets { zero with ft := 255, rt := 1 }).map (fun t => t.resp) = some (.word 0xFF01) := by decide

/-- T3, T4, and the third channel. -/
theorem test_read_sample :
    [0#2, 1#2, 2#2].map (fun c =>
      (after (.readSample c) { zero with smp0 := 0xF320, smp1 := 0x0100, smp2 := 0x0FFF }).map (fun t => t.resp)) =
      [some (.word 0xF320), some (.word 0x0100), some (.word 0x0FFF)] := by decide

/-! Trace text (R103) and pseudo-operations (R104). -/

/-- The example lines of R103. -/
theorem test_trace_lines :
    parseTraceLine "BUS_CMD d=0x00003202 ; 0x0800003202".toList = some ⟨.busCmd 0x3202, some 0x0800003202, none⟩ ∧
    parseTraceLine "AGG_QUERY bus_err=0 -> NOT_OK".toList = some ⟨.aggQuery false, none, some (.status 1)⟩ ∧
    parseTraceLine "CONV v=0x0320 err=0 ovr=0".toList = some ⟨.conv 0x0320 false false, none, none⟩ ∧
    parseTraceLine "TX_DONE".toList = some ⟨.txDone false false, none, none⟩ ∧
    parseTraceLine "READ_SAMPLE ch=3".toList = none ∧ parseTraceLine "CONV d=1".toList = none := by decide

/-- A response of the kind its operation returns, and of another kind (R101; log 16). -/
theorem test_trace_responses :
    ["READ_TARGETS -> 0x00003202", "READ_SAMPLE ch=1 -> 257", "SEQ_STATUS -> OK", "RESET -> OK", "SMP_STATUS -> 1",
      "READ_TARGETS -> NOT_OK", "READ_TARGETS -> 0x100000000", "MAIN_STEP -> 0"].map
      (fun t => (parseTraceLine t.toList).isSome) = [true, true, true, false, false, false, false, false] := by decide

/-- `0x0000_3202` of R9; a separator elsewhere, and an encoded word that is not `0x` and ten hex digits (log 16). -/
theorem test_trace_literals :
    parseValue "0x0000_3202".toList = some 0x3202 ∧
    ["_1", "1_", "1__2", "_", "", "0x", "0x_1"].map (fun t => parseValue t.toList) = List.replicate 7 none ∧
    ["RESET ; 0x0100000000", "RESET ; 0x20100000000", "RESET ; 0x100000000", "RESET ; 0x01_00000000", "RESET ; 4294967296"].map
      (fun t => (parseTraceLine t.toList).isSome) = [true, false, false, false, false] := by decide

theorem test_print_trace_line :
    String.ofList (printTraceLine (.busCmd 0x3202)) = "BUS_CMD d=0x00003202 ; 0x0800003202" := by decide

/-- The shorthands of R104 in the state after reset, and TRIGGER and SETTLE part of the way through a period. -/
theorem test_pseudo_operations :
    Pseudo.expand .boot zero = [.reset, .samplerInit, .seqStart, .mainStart] ∧
    Pseudo.expand .trigger { zero with trgcnt := 1 } = [.trgTick] ∧
    Pseudo.expand .settle { zero with stcnt := 1 } = [.settleTick, .settleTick] ∧
    (parsePseudo "SAMPLE 0x0330 0x0101 0x0FFE err=1".toList).map (fun p => p.expand zero) =
      some [.conv 0x0330 false false, .conv 0x0101 false false, .conv 0x0FFE true false] ∧
    (parsePseudo "SAMPLE 1 ovr=1 2 3 err=1 ovr=1".toList).map (fun p => p.expand zero) =
      some [.conv 1 false true, .conv 2 false false, .conv 3 true true] ∧
    parsePseudo "SAMPLE err=1 1 2 3".toList = none ∧ parsePseudo "SAMPLE 1 2 err=1".toList = none := by decide

/-- ITER is 6, 7 or 11 micro-steps (R104, R250). -/
theorem test_iter_length :
    iterLength 11 { zero with mainctl := 1, stat := 0x120 } = 6 ∧ iterLength 11 { zero with mainctl := 1 } = 7 ∧
    iterLength 11 { zero with mainctl := 1, rt := 2 } = 11 := by decide

/-! Witnesses: states and operands that meet the hypotheses of each statement, clause by clause, at the boundaries. -/

/-- The smallest legal scale, and the greatest illegal one (R8); a fourth channel (log 10). -/
theorem witness_IllegalConfigurationsAreRefused :
    Config.default.legal = true ∧ Config.default.word = 32 ∧ Config.default.sampleWord = 16 ∧ Config.default.nch = 3 ∧
    Config.default.conditionsHold = true ∧ { Config.default with nch := 4 }.legal = false ∧
    ({ zero with cfg := { Config.default with scale := 15 } } : State).cfg.legal = false := by decide

theorem witness_EveryWordNamesOneOperationOrIsRefused :
    (∀ row ∈ operationMap, opOf 0x3900000000#40 ≠ row.1) ∧
    (∃ row ∈ operationMap, opOf 0x2100040000#40 = row.1 ∧ opdOf 0x2100040000#40 &&& ~~~row.2 ≠ 0#32) ∧
    (∃ row ∈ operationMap, opOf 0x1000000003#40 = row.1 ∧ opdOf 0x1000000003#40 &&& ~~~row.2 = 0#32 ∧
      opOf 0x1000000003#40 = 0x10#8 ∧ opdOf 0x1000000003#40 = 3#32) ∧
    (∃ row ∈ operationMap, opOf 0x210003FFFF#40 = row.1 ∧ opdOf 0x210003FFFF#40 &&& ~~~row.2 = 0#32 ∧
      ¬ (opOf 0x210003FFFF#40 = 0x10#8 ∧ opdOf 0x210003FFFF#40 = 3#32)) := by
  refine ⟨?_, ⟨(0x21, 0x3FFFF), ?_, by decide⟩, ⟨(0x10, 0x3), ?_, by decide⟩, ⟨(0x21, 0x3FFFF), ?_, by decide⟩⟩
  · rw [show opOf 0x3900000000#40 = 0x39#8 by decide]
    simp [operationMap]
  all_goals simp [operationMap]

theorem witness_DecodingAnEncodedOperationGivesItBack :
    (Instr.readSample 2).wellFormed = true ∧ (Instr.conv 0xFFFF true true).wellFormed = true := by decide

theorem witness_EachOperationHasOneWord : decode 0x0A00000003#40 = .ok (.txDone true true) := by decide

theorem witness_StepRunsTheDecodedOperation :
    (placeEvent 0x0400000000 zero).events = [0x0400000000] ∧ decode 0x0400000000#40 = .ok .mainStart ∧
    (placeEvent 0x0500000000 zero).events = [0x0500000000] ∧ decode 0x0500000000#40 = .error .undefinedOp := by decide

theorem witness_NoOperationChangesConfigurationOrTrace : ∃ t, exec .reset ones = .next t := ⟨_, rfl⟩

theorem witness_ResetInstallsTheResetValues : ones.cfg.legal = true := by decide

/-- A state after RESET, and both kinds of message. -/
theorem witness_AfterResetOnlyTheBusHandlerCanRun :
    (∃ t, exec .reset ones = .next t) ∧ (∃ m : Instr, m = .busStatreq ∨ ∃ d, m = .busCmd d) ∧
    Instr.mainStep.wellFormed = true ∧ Instr.mainStep.agent ≠ .host ∧ Instr.mainStep.agent ≠ .busHandler :=
  ⟨⟨_, rfl⟩, ⟨_, .inl rfl⟩, by decide⟩

theorem witness_ReadTargetsRespondsBothTargets : zero.cfg.legal = true := by decide

theorem witness_ReadSampleRespondsTheRawWord : zero.cfg.legal = true := by decide

theorem witness_RepeatedQueriesAnswerAsTheRuleSays :
    zero.cfg.legal = true ∧ Stat.smpOvr 0x8#32 = true ∧ (∃ t, exec .smpStatus zero = .next t) ∧ (∃ t, exec .seqStatus zero = .next t) ∧
    (∃ t, exec .readTargets zero = .next t) ∧ ∃ t, exec (.readSample 2) zero = .next t :=
  ⟨by decide, by decide, ⟨_, rfl⟩, ⟨_, rfl⟩, ⟨_, rfl⟩, ⟨_, rfl⟩⟩

/-- Each shared field does change in some step. -/
theorem witness_SharedFieldsChangeOnlyByTheirWriters :
    (after .isrBus { zero with busctl := 1, mdata := 0x0102 }).map (fun t => (t.ft, t.rt)) = some (1, 2) ∧
    (after .mainStep (atMpc 9 { zero with mainctl := 0x200 })).map (fun t => (Seqctl.cp t.seqctl, Seqctl.tip t.seqctl)) =
      some (2, true) := by decide

/-- Each flag does change, in both directions where it can. -/
theorem witness_StickyFlagsChangeOnlyAsNamed :
    (after .isrSmp { zero with smpctl := 0x502, stat := 0x120 }).map (fun t => (t.stat, Smpctl.first t.smpctl)) =
      some (0x108, true) ∧
    (after (.aggQuery false) { zero with stat := 0x8 }).map (fun t => t.stat) = some 0 ∧
    (after .isrSeq { zero with seqctl := 0x20, stat := 0x100 }).map (fun t => t.stat) = some 0 ∧
    (after .isrSmp { zero with smpctl := 0x302 }).map (fun t => Stat.smpErr t.stat) = some true ∧
    (after .reset { zero with smpctl := 0x22 }).map (fun t => (t.stat, Smpctl.first t.smpctl)) = some (0x120, false) := by decide

/-- Each line does become pending and is cleared. -/
theorem witness_PendingLinesChangeOnlyAsNamed :
    (after (.conv 0 false false) { zero with smpctl := 0x1A }).map (pending .sampler) = some true ∧
    (after .isrSmp { zero with smpctl := 0x102 }).map (pending .sampler) = some false ∧
    (after .settleTick { zero with seqctl := 0x10, stcnt := 2 }).map (pending .sequencer) = some true ∧
    (after .isrSeq { zero with seqctl := 0x20 }).map (pending .sequencer) = some false ∧
    (after .busStatreq zero).map (pending .bus) = some true ∧
    (after .isrBus { zero with busctl := 1 }).map (pending .bus) = some false := by decide

theorem witness_ScaledPositionIsFloorOfMaskedSample : Config.default.legal = true := by decide

theorem witness_SamplerInitArmsOnlyFromIdle :
    zero.cfg.legal = true ∧ Smpctl.sst zero.smpctl = 0#2 ∧ Smpctl.sst ({ zero with smpctl := 1 } : State).smpctl ≠ 0#2 := by
  decide

/-- Idle, a tick before the last, and the last tick of a period. -/
theorem witness_TriggerTickCountsAndRaisesTheEdge :
    zero.cfg.legal = true ∧ Smpctl.sst zero.smpctl = 0#2 ∧ Smpctl.sst 1#32 ≠ 0#2 ∧
    (0#32).toNat + 1 ≠ zero.cfg.samplePeriod ∧ (1#32).toNat + 1 = zero.cfg.samplePeriod := by decide

/-- No sequence; slots 0, 1 and 2 of a sequence; the last with and without a transfer error. -/
theorem witness_ConversionDepositsCommitsAndRaisesCompletion :
    zero.cfg.legal = true ∧ Smpctl.busy 0#32 = false ∧
    (Smpctl.busy 0x12#32 = true ∧ Smpctl.wix 0x12#32 = 0#2) ∧ (Smpctl.busy 0x16#32 = true ∧ Smpctl.wix 0x16#32 = 1#2) ∧
    (Smpctl.busy 0x1A#32 = true ∧ Smpctl.wix 0x1A#32 = 2#2 ∧ (Smpctl.aerr 0x1A#32 || false) = false) ∧
    (Smpctl.busy 0x5A#32 = true ∧ Smpctl.wix 0x5A#32 = 2#2 ∧ (Smpctl.aerr 0x5A#32 || false) = true) := by decide

theorem witness_VisibleSampleChangesOnlyByCommitOrReset :
    (after (.conv 3 false true) { zero with smpctl := 0x1A, buf0 := 1, buf1 := 2 }).map (fun t => (t.smp0, t.smp1, t.smp2)) =
      some (1, 2, 3) := by decide

/-- Not pending; waiting; a first success; an error; a later success. -/
theorem witness_SamplerHandlerRecordsErrorOverrunAndSeedsOnce :
    zero.cfg.legal = true ∧ ¬ (Smpctl.cpend 0#32 = true ∧ Busctl.bwait 0#32 = false) ∧
    ¬ (Smpctl.cpend 0x102#32 = true ∧ Busctl.bwait 0xC#32 = false) ∧
    (Smpctl.cpend 0x102#32 = true ∧ Busctl.bwait 0#32 = false ∧ Smpctl.cerr 0x102#32 = false ∧ Smpctl.first 0x102#32 = false) ∧
    (Smpctl.cpend 0x302#32 = true ∧ Smpctl.cerr 0x302#32 = true) ∧
    (Smpctl.cpend 0x122#32 = true ∧ Smpctl.first 0x122#32 = true) := by decide

theorem witness_SamplerStatusIsPure : zero.cfg.legal = true := by decide

theorem witness_CommandFillsAnEmptyMailbox :
    zero.cfg.legal = true ∧ Busctl.mfull 0#32 = false ∧ Busctl.mfull 1#32 = true := by decide

theorem witness_StatusRequestFillsAnEmptyMailbox :
    zero.cfg.legal = true ∧ Busctl.mfull 0#32 = false ∧ Busctl.mfull 3#32 = true := by decide

/-- Empty; full while waiting; a Command; a Status-request. -/
theorem witness_BusHandlerDecodesOrAnswers :
    zero.cfg.legal = true ∧ ¬ (Busctl.mfull 0#32 = true ∧ Busctl.bwait 0#32 = false) ∧
    ¬ (Busctl.mfull 0xD#32 = true ∧ Busctl.bwait 0xD#32 = false) ∧
    (Busctl.mfull 1#32 = true ∧ Busctl.bwait 1#32 = false ∧ Busctl.mkind 1#32 = false) ∧
    (Busctl.mfull 3#32 = true ∧ Busctl.bwait 3#32 = false ∧ Busctl.mkind 3#32 = true) := by decide

theorem witness_UpperCommandBitsHaveNoEffect :
    Busctl.mkind ({ zero with busctl := 1 } : State).busctl = false ∧
    (0xDEAD3202#32).extractLsb' 0 16 = (0x00003202#32).extractLsb' 0 16 := by decide

theorem witness_TransmitDoneEndsTheWait :
    zero.cfg.legal = true ∧ Busctl.bwait 0#32 = false ∧ Busctl.bwait 0xC#32 = true := by decide

/-- A run during the wait: a message arrives and the sampling timer ticks. -/
theorem witness_UnansweredStatusRequestBlocksCoreForEver : zero.cfg.legal = true ∧
    (∃ t, execAll [.busCmd 1, .trgTick] { zero with busctl := 0xC, smpctl := 2 } = .next t) ∧ Busctl.bwait 0xC#32 = true ∧
    ∀ i ∈ [Instr.busCmd 1, Instr.trgTick], i ≠ .reset ∧ ∀ a e, i ≠ .txDone a e := by
  refine ⟨by decide, ⟨_, rfl⟩, by decide, ?_⟩
  intro i hi
  simp only [List.mem_cons, List.not_mem_nil, or_false] at hi
  rcases hi with rfl | rfl <;> simp

theorem witness_WaitLeavesHardwareAndHostRunning :
    (∀ a e, Instr.trgTick ≠ .txDone a e) ∧ Instr.trgTick.agent = .samplingTimer ∧ (∀ a e, Instr.reset ≠ .txDone a e) ∧
    Instr.reset.agent = .host ∧ (Instr.conv 0 false false).agent = .conversionEngine ∧ Instr.settleTick.agent = .settleTimer := by
  decide

theorem witness_AggregateQueryReadsAndClearsOverrun : zero.cfg.legal = true := by decide

theorem witness_SequencerStartSeeksHomeOnce :
    zero.cfg.legal = true ∧ Seqctl.started 0#32 = false ∧ Seqctl.started 0x8#32 = true := by decide

/-- Stopped; the last tick; a tick before the last. -/
theorem witness_SettleTickCountsAndElapses :
    zero.cfg.legal = true ∧ Seqctl.sten 0x8#32 = false ∧ Seqctl.sten 0x18#32 = true ∧
    (2#32).toNat + 1 = zero.cfg.settleTicks ∧ (1#32).toNat + 1 ≠ zero.cfg.settleTicks := by decide

/-- The first and the last tick of a period. -/
theorem witness_SettleWindowElapsesExactlyOnce :
    zero.cfg.legal = true ∧ zero.cfg.settleTicks < 2 ^ 32 ∧ Seqctl.sten 0x18#32 = true ∧ (0#32).toNat < zero.cfg.settleTicks ∧
    (2#32).toNat < zero.cfg.settleTicks ∧ 0 < zero.cfg.settleTicks - (2#32).toNat := by decide

theorem witness_TriggerEdgeComesAfterTheRemainingTicks :
    zero.cfg.legal = true ∧ zero.cfg.samplePeriod < 2 ^ 32 ∧ Smpctl.sst 0x1#32 ≠ 0#2 ∧ (0#32).toNat < zero.cfg.samplePeriod ∧
    (1#32).toNat < zero.cfg.samplePeriod ∧ 0 < zero.cfg.samplePeriod - (1#32).toNat := by decide

theorem witness_SettleHandlerIdlesBothAxes :
    zero.cfg.legal = true ∧ ¬ (Seqctl.stelapsed 0x18#32 = true ∧ Busctl.bwait 0#32 = false) ∧
    ¬ (Seqctl.stelapsed 0x28#32 = true ∧ Busctl.bwait 0xC#32 = false) ∧
    (Seqctl.stelapsed 0x28#32 = true ∧ Busctl.bwait 0#32 = false) := by decide

theorem witness_SequencerStatusIsPure : zero.cfg.legal = true := by decide

theorem witness_ComparatorStopsExactlyOnEquality :
    (50#32).toNat < (51#32).toNat ∧ (49#32).toNat < (50#32).toNat ∧ (focusCmp 50 50).code = 0#2 := by decide

theorem witness_MainStartTakesEffectOnce :
    zero.cfg.legal = true ∧ Mainctl.mrun 0#32 = false ∧ Mainctl.mrun 1#32 = true := by decide

/-- Stopped; waiting; the first and the last micro-step; the first value that names none. -/
theorem witness_MainStepIsGuardedAndSelectedByMpc :
    zero.cfg.legal = true ∧ ¬ (Mainctl.mrun 0#32 = true ∧ Busctl.bwait 0#32 = false) ∧
    ¬ (Mainctl.mrun 1#32 = true ∧ Busctl.bwait 0xC#32 = false) ∧ (Mainctl.mrun 1#32 = true ∧ Busctl.bwait 0#32 = false) ∧
    (Mainctl.mpc 0x01#32).toNat ≤ 10 ∧ (Mainctl.mpc 0xA1#32).toNat ≤ 10 ∧ Mainctl.mrun 0xB1#32 = true ∧
    11 ≤ (Mainctl.mpc 0xB1#32).toNat := by decide

theorem witness_MainLoopLatchesPositionAndFocusTarget :
    zero.cfg.legal = true ∧ Mainctl.mrun (atMpc 0 zero).mainctl = true ∧ Busctl.bwait zero.busctl = false ∧
    Mainctl.mpc (atMpc 0 zero).mainctl = 0#4 ∧ Mainctl.mpc (atMpc 1 zero).mainctl = 1#4 := by decide

theorem witness_MainLoopLatchesTheStatusGates :
    zero.cfg.legal = true ∧ Mainctl.mrun (atMpc 2 zero).mainctl = true ∧ Busctl.bwait zero.busctl = false ∧
    Mainctl.mpc (atMpc 2 zero).mainctl = 2#4 ∧ Mainctl.mpc (atMpc 4 zero).mainctl = 4#4 := by decide

theorem witness_MainLoopDrivesFocusAxisBehindOpenGate :
    zero.cfg.legal = true ∧ Mainctl.mrun 0x33#32 = true ∧ Busctl.bwait 0#32 = false ∧ Mainctl.mpc 0x33#32 = 3#4 ∧
    Mainctl.g 0x33#32 = true ∧ Mainctl.mpc 0x31#32 = 3#4 ∧ Mainctl.g 0x31#32 = false := by decide

theorem witness_MainLoopLatchesRotaryTargetBehindOpenGate :
    zero.cfg.legal = true ∧ Mainctl.mrun 0x53#32 = true ∧ Busctl.bwait 0#32 = false ∧ Mainctl.mpc 0x53#32 = 5#4 ∧
    Mainctl.g 0x53#32 = true ∧ Mainctl.mpc 0x51#32 = 5#4 ∧ Mainctl.g 0x51#32 = false := by decide

theorem witness_SetPhaseComparesAndDisarms :
    zero.cfg.legal = true ∧ Mainctl.mrun 0x61#32 = true ∧ Busctl.bwait 0#32 = false ∧ Mainctl.mpc 0x61#32 = 6#4 ∧
    Mainctl.mpc 0x71#32 = 7#4 := by decide

/-- The six rows of the direction table, as pairs of codes, and a state of the invariant at SP3. -/
theorem witness_SetPhaseDrivesTheTableRow :
    (zero.cfg.legal = true ∧ Mainctl.mrun 0x281#32 = true ∧ Busctl.bwait 0#32 = false ∧ Mainctl.mpc 0x281#32 = 8#4) ∧
    (∀ c ∈ [(1#2, 2#2), (2#2, 1#2), (1#2, 0#2), (2#2, 0#2), (0#2, 1#2), (0#2, 2#2)],
      c.1 ≠ c.2 ∧ c.1.toNat ≤ 2 ∧ c.2.toNat ≤ 2) ∧
    ControlInv { zero with mainctl := 0x281, seqctl := 0x8 } := by
  unfold ControlInv
  decide

/-- Micro-steps SP4 and SP5, the second in a state of the invariant. -/
theorem witness_SetPhaseCommitsAndRearms :
    zero.cfg.legal = true ∧ Mainctl.mrun 0x291#32 = true ∧ Busctl.bwait 0#32 = false ∧ Mainctl.mpc 0x291#32 = 9#4 ∧
    Mainctl.mpc 0x2A1#32 = 10#4 ∧ ControlInv { zero with mainctl := 0x2A1, seqctl := 0xE } := by
  unfold ControlInv
  decide

theorem witness_UninterruptedSetPhaseNetEffect :
    zero.cfg.legal = true ∧ Mainctl.mrun 0x261#32 = true ∧ Busctl.bwait 0#32 = false ∧ Mainctl.mpc 0x261#32 = 6#4 ∧
    Seqctl.cp 0x9#32 ≠ Mainctl.tgt 0x261#32 ∧ Seqctl.cp 0x9#32 ≠ 3#2 ∧ Mainctl.tgt 0x261#32 ≠ 3#2 := by decide

theorem witness_IterationLengthAndIndependentGates :
    zero.cfg.legal = true ∧ Mainctl.mrun 1#32 = true ∧ Busctl.bwait 0#32 = false ∧ Mainctl.mpc 1#32 = 0#4 := by decide

theorem witness_MainLoopStateSurvivesEveryOtherAgent :
    (∃ t, exec .isrBus { zero with busctl := 3, mainctl := 0x31 } = .next t) ∧ Instr.isrBus.agent ≠ .mainLoop ∧
    Instr.isrBus ≠ .mainStart ∧ Instr.isrBus ≠ .reset := ⟨⟨_, rfl⟩, by decide⟩

theorem witness_PendingElapsedEventCutsNewMotionShort :
    zero.cfg.legal = true ∧ Mainctl.mrun 0x291#32 = true ∧ Busctl.bwait 0#32 = false ∧ Mainctl.mpc 0x291#32 = 9#4 ∧
    Seqctl.stelapsed 0x29#32 = true := by decide

/-- A state in the middle of a run: first sample seeded, home reached, a setPhase to Phase2 at SP3, a conversion sequence
under way and a Status-request waiting, with the word for SP3 to come. -/
def midway : State :=
  { zero with ft := 50, rt := 2, smp0 := 0x320, smpctl := 0x36, trgcnt := 1, seqctl := 0x8, mainctl := 0x283, pv := 50, ftl := 50, busctl := 3, events := [0x3800000000] }

/-- The state of `midway` meets every invariant and has a step. -/
theorem witness_SafeState : SafeState midway ∧ ∃ t, step midway = .next t := by
  refine ⟨⟨?_, ?_, ?_, ?_, ?_⟩, ⟨_, rfl⟩⟩
  · unfold ReservedClear
    decide
  · unfold SamplerInv
    decide
  · unfold ControlInv
    decide
  · unfold PortInv
    decide
  · unfold FocusHeldUntilFirstSample
    decide

theorem witness_PowerOnStateIsSafe : Config.default.legal = true := by decide

theorem witness_EveryStepKeepsReservedBitsClear : ReservedClear midway ∧ ∃ t, step midway = .next t :=
  ⟨witness_SafeState.1.1, witness_SafeState.2⟩

theorem witness_EveryStepKeepsSamplerInvariant : SamplerInv midway ∧ ∃ t, step midway = .next t :=
  ⟨witness_SafeState.1.2.1, witness_SafeState.2⟩

theorem witness_EveryStepKeepsControlInvariant : ControlInv midway ∧ ∃ t, step midway = .next t :=
  ⟨witness_SafeState.1.2.2.1, witness_SafeState.2⟩

theorem witness_EveryStepKeepsPortInvariant : PortInv midway ∧ ∃ t, step midway = .next t :=
  ⟨witness_SafeState.1.2.2.2.1, witness_SafeState.2⟩

theorem witness_EveryStepHoldsFocusUntilFirstSample : FocusHeldUntilFirstSample midway ∧ ∃ t, step midway = .next t :=
  ⟨witness_SafeState.1.2.2.2.2, witness_SafeState.2⟩

/-- A reachable state that is not the first one. -/
theorem witness_ReachableStatesHaveLegalValues :
    Reachable { mainStart State.reset with resp := .nothing } ∧ Seqctl.started (mainStart State.reset).seqctl = false :=
  ⟨.step _ _ .mainStart (.powerOn Config.default 0 (by decide)) rfl
    ((mainStart_next_iff _ _).mpr ⟨show Config.default.legal = true by decide, rfl⟩), by decide⟩

/-- The state after the home seek with nothing else started: safe, with the event pending, then quiescent. -/
def homed : State := { zero with stat := 0x120, seqctl := 0x2C, out := 0x28, stcnt := 3 }

theorem witness_QuiescentStatesAreTheStoppedOnes : SafeState { homed with seqctl := 0x8, out := 0, stat := 0x20 } := by
  refine ⟨?_, ?_, ?_, ?_, ?_⟩
  · unfold ReservedClear
    decide
  · unfold SamplerInv
    decide
  · unfold ControlInv
    decide
  · unfold PortInv
    decide
  · unfold FocusHeldUntilFirstSample
    decide

/-- A safe state that R305 lists, in which no handler waits and SEQ_START has not come. -/
theorem witness_QuiescentStatesAreTheStoppedOnes_beforeBoot :
    SafeState { zero with stat := 0x120 } ∧ BeforeBoot { zero with stat := 0x120 } ∧ Busctl.bwait zero.busctl = false ∧
    Seqctl.started zero.seqctl = false := by
  refine ⟨⟨?_, ?_, ?_, ?_, ?_⟩, ?_, by decide, by decide⟩
  · unfold ReservedClear
    decide
  · unfold SamplerInv
    decide
  · unfold ControlInv
    decide
  · unfold PortInv
    decide
  · unfold FocusHeldUntilFirstSample
    decide
  · unfold BeforeBoot
    decide

/-- A safe state after SAMPLER_INIT and MAIN_START in which no handler waits. -/
theorem witness_QuiescentStatesAreTheStoppedOnes_running :
    SafeState midway ∧ Smpctl.sst midway.smpctl ≠ 0#2 ∧ Mainctl.mrun midway.mainctl = true ∧
    Busctl.bwait midway.busctl = false := ⟨witness_SafeState.1, by decide⟩

theorem conv_not_enabled (v : SampleWord) (e o : Bool) (s : State) (hl : s.cfg.legal = true)
    (hb : Smpctl.busy s.smpctl = false) : enabled (.conv v e o) s = false := by
  rw [enabled, exec, execConv, whenEnabled_of_disabled _ _ _ _ hl hb]

/-- A run in which one handler is taken, and then the host asks for the sampler's status for ever. -/
def servedRun (s t q : State) : Nat → State
  | 0 => s
  | 1 => t
  | _ + 2 => q

/-- The operations of that run. -/
def servedEvents (i : Instr) : Nat → Instr
  | 0 => i
  | _ + 1 => .smpStatus

/-- Such a run is an execution, and a weakly fair one when every agent ends stopped. -/
theorem servedRun_fair {i : Instr} {s t q : State} (hw : i.wellFormed = true) (h0 : exec i s = .next t)
    (h1 : exec .smpStatus t = .next q) (h2 : exec .smpStatus q = .next q) (hq : AgentsStopped q) :
    IsExecution (servedRun s t q) (servedEvents i) ∧ WeaklyFair (servedRun s t q) (servedEvents i) := by
  refine ⟨fun n => ?_, fun a ha n h => ?_⟩
  · match n with
    | 0 => exact ⟨hw, h0⟩
    | 1 => exact ⟨rfl, h1⟩
    | _ + 2 => exact ⟨rfl, h2⟩
  · obtain ⟨j, hj, rfl, he⟩ := h (n + 2) (by omega)
    exact absurd (show enabled j q = true from he) (by rw [hq j hj ha]; decide)

/-- `homed` after its settle handler and a status query. -/
def settled : State := { homed with seqctl := 0x8, out := 0, stat := 0x20, resp := .status 1 }

theorem settled_stopped : AgentsStopped settled := by
  intro i _ ha
  cases i
  case conv v e o _ =>
    exact conv_not_enabled v e o settled (by decide) (by decide)
  all_goals first | exact absurd rfl ha | decide

/-- The guards R210, R215 and R271 stop every agent in a reachable state after SEQ_START alone, elapsed and handled, which R305's
list leaves out: it is not quiescent (log 13). -/
theorem test_stopped_after_seq_start_alone :
    ∃ s, Reachable s ∧ AgentsStopped s ∧ Seqctl.started s.seqctl = true ∧ ¬ Quiescent s := by
  let c : Params := { Config.default with settleTicks := 1 }
  have h1 := Reachable.step _ _ .seqStart (.powerOn c 0 (by decide)) rfl ((seqStart_next_iff _ _).mpr ⟨by decide, rfl⟩)
  have h2 := Reachable.step _ _ .settleTick h1 rfl ((settleTick_next_iff _ _).mpr ⟨by decide, by decide, rfl⟩)
  have h3 := Reachable.step _ _ .isrSeq h2 rfl ((isrSeq_next_iff _ _).mpr ⟨by decide, by decide, rfl⟩)
  refine ⟨_, h3, fun i _ ha => ?_, by decide, fun h => absurd h.2.2.1 (by decide)⟩
  cases i
  case conv v e o _ =>
    exact conv_not_enabled v e o _ (by decide) (by decide)
  all_goals first | exact absurd rfl ha | decide

/-- The settle handler's line pends and no handler ever waits; the sampler's line can pend as well. -/
theorem witness_PendingHandlerIsEventuallyTaken :
    (IsExecution (servedRun homed { settled with resp := .nothing } settled) (servedEvents .isrSeq) ∧
      WeaklyFair (servedRun homed { settled with resp := .nothing } settled) (servedEvents .isrSeq)) ∧
    pending .sequencer homed = true ∧ handlerActive homed = false ∧ (Instr.isrSeq).agent = handlerAgent .sequencer ∧
    pending .sampler { zero with smpctl := 0x102 } = true :=
  ⟨servedRun_fair rfl rfl rfl rfl settled_stopped, by decide⟩

/-- A Status-request waits in the mailbox of a machine not yet booted. -/
def asked : State := { zero with rt := 2, smp0 := 0x320, busctl := 3 }

/-- `asked` after its handler and a status query: the handler waits, and no agent has a step of its own. -/
def waiting : State := { asked with busctl := 0xC, txw := 0x3202, resp := .status 0 }

theorem waiting_stopped : AgentsStopped waiting := by
  intro i _ ha
  cases i
  case conv v e o _ =>
    exact conv_not_enabled v e o waiting (by decide) (by decide)
  all_goals first | exact absurd rfl ha | decide

/-- The bus line pends with a Status-request, whose handler becomes active when it is served and not before. -/
theorem witness_PendingHandlerIsEventuallyTaken_statusRequest :
    (IsExecution (servedRun asked { waiting with resp := .nothing } waiting) (servedEvents .isrBus) ∧
      WeaklyFair (servedRun asked { waiting with resp := .nothing } waiting) (servedEvents .isrBus)) ∧
    pending .bus asked = true ∧
    ∀ m, 0 ≤ m → handlerActive (servedRun asked { waiting with resp := .nothing } waiting m) = true ∨
        servedEvents .isrBus m = .reset →
      ∃ k, 0 ≤ k ∧ k < m ∧ (servedEvents .isrBus k).agent = handlerAgent .bus := by
  refine ⟨servedRun_fair rfl rfl rfl rfl waiting_stopped, by decide, fun m _ h => ?_⟩
  match m with
  | 0 => exact absurd h (by decide)
  | m + 1 => exact ⟨0, Nat.le_refl 0, Nat.succ_pos m, rfl⟩

/-- R182, R315: a wait before boot is not quiescent, with the mailbox empty or full, though no agent has an enabled step. -/
theorem test_waiting_is_not_quiescent :
    AgentsStopped waiting ∧ ¬ Quiescent waiting ∧ ¬ Quiescent { waiting with busctl := 0xF } :=
  ⟨waiting_stopped, fun h => absurd h.2.2.2.2.2 (by decide), fun h => absurd h.2.2.2.2.2 (by decide)⟩

end Sys2Proof.Tests
end

section
/-! The family 00_scope.md: the configuration of R7, its legality (R8), and what no operation touches (O6, O7). -/

namespace Sys2Proof.Machine

/-! Legality (R8). -/

/-- Every operation is one guarded step (R10): its guard and its body are its own, the test of the configuration is shared. -/
theorem exec_eq_whenEnabled (i : Instr) (s : State) : ∃ guard body, exec i s = whenEnabled i guard s body := by
  cases i <;> exact ⟨_, _, rfl⟩

theorem exec_of_illegal (i : Instr) (s : State) (h : s.cfg.legal = false) : exec i s = .refused .illegalConfiguration := by
  obtain ⟨guard, body, hi⟩ := exec_eq_whenEnabled i s
  rw [hi, whenEnabled_of_illegal i guard s body h]

/-- Settles O6: R8's conditions are `legal_iff`, and the shared guard refuses the rest. -/
theorem illegalConfigurationsAreRefused : Obligations.IllegalConfigurationsAreRefused := by
  refine ⟨fun p hp => ?_, fun p hword hsample hnch hconditions => ?_, exec_of_illegal⟩
  · obtain ⟨-, hconditions⟩ := (legal_iff p).mp hp
    exact hconditions
  · exact (legal_iff p).mpr ⟨⟨hword, hsample, hnch⟩, hconditions⟩

/-! The configuration and the events still to come (logs 1 and 4). -/

/-- `t` has the configuration and the events still to come of `s`; registers, response and draws may differ. -/
def SameConfigAndTrace (s t : State) : Prop := t.cfg = s.cfg ∧ t.events = s.events

/-- Returning a response touches neither (R10). -/
theorem SameConfigAndTrace.withResp {s t : State} (h : SameConfigAndTrace s t) (r : Response) :
    SameConfigAndTrace s { t with resp := r } := h

theorem resetState_sameConfigAndTrace (s : State) : SameConfigAndTrace s (resetState s) := ⟨rfl, rfl⟩

theorem samplerInit_sameConfigAndTrace (s : State) : SameConfigAndTrace s (samplerInit s) := by
  rw [samplerInit_eq]; exact ⟨rfl, rfl⟩

theorem seqStart_sameConfigAndTrace (s : State) : SameConfigAndTrace s (seqStart s) := by
  rw [seqStart_eq]; exact ⟨rfl, rfl⟩

theorem mainStart_sameConfigAndTrace (s : State) : SameConfigAndTrace s (mainStart s) := by
  rw [mainStart_eq]; exact ⟨rfl, rfl⟩

theorem arrive_sameConfigAndTrace (kind : Bool) (d : Word) (s : State) : SameConfigAndTrace s (arrive kind d s) := by
  rw [arrive_eq]; exact ⟨rfl, rfl⟩

theorem returnFromWait_sameConfigAndTrace (s : State) : SameConfigAndTrace s (returnFromWait s) := ⟨rfl, rfl⟩

theorem trgTick_sameConfigAndTrace (s : State) : SameConfigAndTrace s (trgTick s) := by
  rw [trgTick_eq]; exact ⟨rfl, rfl⟩

theorem convert_sameConfigAndTrace (v : SampleWord) (e o : Bool) (s : State) : SameConfigAndTrace s (convert v e o s) := by
  rw [convert_eq]; exact ⟨rfl, rfl⟩

theorem settleTick_sameConfigAndTrace (s : State) : SameConfigAndTrace s (settleTick s) := ⟨rfl, rfl⟩

theorem samplerHandler_sameConfigAndTrace (s : State) : SameConfigAndTrace s (samplerHandler s) := by
  rw [samplerHandler_eq]; exact ⟨rfl, rfl⟩

theorem settleHandler_sameConfigAndTrace (s : State) : SameConfigAndTrace s (settleHandler s) := ⟨rfl, rfl⟩

theorem busHandler_sameConfigAndTrace (s : State) : SameConfigAndTrace s (busHandler s) := by
  rw [busHandler_eq]; exact ⟨rfl, rfl⟩

/-- SP3's branch is on OUT and on the draws only (R233, log 7). -/
theorem microSp3_sameConfigAndTrace (s : State) : SameConfigAndTrace s (microSp3 s) := by
  rw [microSp3_eq]; exact ⟨rfl, rfl⟩

/-- Of the eleven micro-steps all but SP3, the ninth, are one record update. -/
theorem microStep_sameConfigAndTrace {s u : State} (h : microStep s = some u) : SameConfigAndTrace s u := by
  rcases microStep_cases s u h with ⟨-, rfl⟩ | ⟨-, rfl⟩ | ⟨-, rfl⟩ | ⟨-, rfl⟩ | ⟨-, rfl⟩ | ⟨-, rfl⟩ | ⟨-, rfl⟩ | ⟨-, rfl⟩ |
    ⟨-, rfl⟩ | ⟨-, rfl⟩ | ⟨-, rfl⟩
  on_goal 9 => exact microSp3_sameConfigAndTrace s
  all_goals exact ⟨rfl, rfl⟩

/-- Every operation is an effect that keeps both, followed by a response: the cases are those of `exec_next_cases`. -/
theorem exec_sameConfigAndTrace {i : Instr} {s t : State} (h : exec i s = .next t) : SameConfigAndTrace s t := by
  obtain ⟨-, hcases⟩ := exec_next_cases h
  rcases hcases with ⟨-, rfl⟩ | ⟨-, rfl⟩ | ⟨-, rfl⟩ | ⟨-, rfl⟩ | ⟨d, -, rfl⟩ | ⟨-, rfl⟩ | ⟨_, _, -, -, rfl⟩ | ⟨_, -, rfl⟩ |
    ⟨_, rfl, -⟩ | ⟨-, -, rfl⟩ | ⟨v, e, o, -, -, rfl⟩ | ⟨-, -, rfl⟩ | ⟨-, -, -, rfl⟩ | ⟨-, -, -, rfl⟩ | ⟨-, -, -, rfl⟩ |
    ⟨-, -, -, u, hu, rfl⟩
  · exact (resetState_sameConfigAndTrace s).withResp _
  · exact (samplerInit_sameConfigAndTrace s).withResp _
  · exact (seqStart_sameConfigAndTrace s).withResp _
  · exact (mainStart_sameConfigAndTrace s).withResp _
  · exact (arrive_sameConfigAndTrace false d s).withResp _
  · exact (arrive_sameConfigAndTrace true 0 s).withResp _
  · exact (returnFromWait_sameConfigAndTrace s).withResp _
  · -- AGG_QUERY clears a bit of STAT (R185).
    exact ⟨rfl, rfl⟩
  · -- The pure queries write the response alone.
    exact ⟨rfl, rfl⟩
  · exact (trgTick_sameConfigAndTrace s).withResp _
  · exact (convert_sameConfigAndTrace v e o s).withResp _
  · exact (settleTick_sameConfigAndTrace s).withResp _
  · exact (samplerHandler_sameConfigAndTrace s).withResp _
  · exact (settleHandler_sameConfigAndTrace s).withResp _
  · exact (busHandler_sameConfigAndTrace s).withResp _
  · exact (microStep_sameConfigAndTrace hu).withResp _

/-- Settles O7, operation by operation. -/
theorem noOperationChangesConfigurationOrTrace : Obligations.NoOperationChangesConfigurationOrTrace :=
  fun _ _ _ h => exec_sameConfigAndTrace h

end Sys2Proof.Machine
end

section
/-! The family 10_state.md: which registers an operation may write, and that it keeps every other (R22, R70). -/

namespace Sys2Proof.Machine

/-- The registers an operation may write (R23 to R37): every other register is as before. -/
def writes : Instr → List Reg
  | .reset => [.ft, .rt, .stat, .smp0, .smp1, .smp2, .buf0, .buf1, .buf2, .smpctl, .trgcnt, .seqctl, .stcnt, .out,
      .mainctl, .pv, .ftl, .busctl, .mdata, .txw]
  | .samplerInit => [.smpctl, .trgcnt]
  | .seqStart => [.seqctl, .out, .stcnt]
  | .mainStart => [.mainctl]
  | .busCmd _ => [.busctl, .mdata]
  | .busStatreq => [.busctl, .mdata]
  | .txDone _ _ => [.busctl]
  | .aggQuery _ => [.stat]
  | .smpStatus => []
  | .seqStatus => []
  | .readTargets => []
  | .readSample _ => []
  | .trgTick => [.smpctl, .trgcnt]
  | .conv _ _ _ => [.smpctl, .smp0, .smp1, .smp2, .buf0, .buf1, .buf2]
  | .settleTick => [.seqctl, .stcnt]
  | .isrSmp => [.ft, .stat, .smpctl]
  | .isrSeq => [.stat, .seqctl, .out]
  | .isrBus => [.ft, .rt, .busctl, .mdata, .txw]
  | .mainStep => [.seqctl, .stcnt, .out, .mainctl, .pv, .ftl]

/-- The frame of a micro-step. -/
theorem microStep_reg_of_not_written {s u : State} (h : microStep s = some u) {r : Reg} (hr : r ∉ writes .mainStep) :
    u.reg r = s.reg r := by
  rcases microStep_cases s u h with ⟨-, rfl⟩ | ⟨-, rfl⟩ | ⟨-, rfl⟩ | ⟨-, rfl⟩ | ⟨-, rfl⟩ | ⟨-, rfl⟩ | ⟨-, rfl⟩ | ⟨-, rfl⟩ |
    ⟨-, rfl⟩ | ⟨-, rfl⟩ | ⟨-, rfl⟩
  on_goal 9 => rw [microSp3_eq]
  all_goals cases r <;> simp [writes] at hr <;> rfl

/-- The frame of every operation: a register it does not write keeps its value (R22). -/
theorem exec_reg_of_not_written {i : Instr} {s t : State} (h : exec i s = .next t) {r : Reg} (hr : r ∉ writes i) :
    t.reg r = s.reg r := by
  obtain ⟨-, hcases⟩ := exec_next_cases h
  rcases hcases with ⟨rfl, rfl⟩ | ⟨rfl, rfl⟩ | ⟨rfl, rfl⟩ | ⟨rfl, rfl⟩ | ⟨d, rfl, rfl⟩ | ⟨rfl, rfl⟩ | ⟨a, e, rfl, -, rfl⟩ |
    ⟨b, rfl, rfl⟩ | ⟨_, rfl, -⟩ | ⟨rfl, -, rfl⟩ | ⟨v, e, o, rfl, -, rfl⟩ | ⟨rfl, -, rfl⟩ | ⟨rfl, -, -, rfl⟩ |
    ⟨rfl, -, -, rfl⟩ | ⟨rfl, -, -, rfl⟩ | ⟨rfl, -, -, u, hu, rfl⟩
  case inr.inr.inr.inr.inr.inr.inr.inr.inr.inr.inr.inr.inr.inr.inr =>
    exact microStep_reg_of_not_written hu hr
  all_goals
    try simp only [samplerInit_eq, seqStart_eq, mainStart_eq, arrive_eq, trgTick_eq, convert_eq, samplerHandler_eq, busHandler_eq]
    cases r <;> simp [writes] at hr <;> rfl

/-- A register changes only by an operation that writes it. -/
theorem mem_writes_of_reg_ne {i : Instr} {s t : State} (h : exec i s = .next t) (r : Reg) (hne : t.reg r ≠ s.reg r) :
    r ∈ writes i := by
  by_contra hr
  exact hne (exec_reg_of_not_written h hr)

/-- No operation changes the configuration (log 1). -/
theorem exec_cfg {i : Instr} {s t : State} (h : exec i s = .next t) : t.cfg = s.cfg :=
  (exec_sameConfigAndTrace h).1

theorem exec_legal {i : Instr} {s t : State} (h : exec i s = .next t) : s.cfg.legal = true :=
  (exec_next_cases h).1

/-- An invariant that every operation keeps, and that does not look at the trace, is kept by every step (R90, R94). -/
theorem step_keeps {P : State → Prop} (hevents : ∀ s evs, P s → P { s with events := evs })
    (hexec : ∀ i s t, P s → exec i s = .next t → P t) {s t : State} (hs : P s) (h : step s = .next t) : P t := by
  obtain ⟨_, rest, i, -, -, hi⟩ := (step_next_iff s t).mp h
  exact hexec i _ t (hevents s rest hs) hi

end Sys2Proof.Machine
end

section
/-! The family 10_state.md: what the effects do to the fields of single registers, and what a step can do to STAT. -/

namespace Sys2Proof.Machine

/-- A trigger edge starts a sequence or records the lost trigger, and takes an armed sampler to Sampling (R144). -/
@[simp] theorem triggerEdge_fields (w : Word) :
    Smpctl.sst (triggerEdge w) = (if Smpctl.sst w = sstArmed then sstSampling else Smpctl.sst w) ∧
    Smpctl.wix (triggerEdge w) = Smpctl.wix w ∧
    Smpctl.busy (triggerEdge w) = true ∧
    Smpctl.first (triggerEdge w) = Smpctl.first w ∧
    Smpctl.aerr (triggerEdge w) = Smpctl.aerr w ∧
    Smpctl.aovr (triggerEdge w) = (Smpctl.busy w || Smpctl.aovr w) ∧
    Smpctl.cpend (triggerEdge w) = Smpctl.cpend w ∧
    Smpctl.cerr (triggerEdge w) = Smpctl.cerr w ∧
    Smpctl.covr (triggerEdge w) = Smpctl.covr w ∧
    getField 11 21 (triggerEdge w) = getField 11 21 w := by
  unfold triggerEdge
  by_cases hsst : Smpctl.sst w = sstArmed <;> cases hbusy : Smpctl.busy w <;> simp [hsst, hbusy]

/-- A completion sets the line and adds its indications to those already there (R148). -/
@[simp] theorem raiseCompletion_fields (ae ao : Bool) (w : Word) :
    Smpctl.sst (raiseCompletion ae ao w) = Smpctl.sst w ∧
    Smpctl.wix (raiseCompletion ae ao w) = Smpctl.wix w ∧
    Smpctl.busy (raiseCompletion ae ao w) = Smpctl.busy w ∧
    Smpctl.first (raiseCompletion ae ao w) = Smpctl.first w ∧
    Smpctl.aerr (raiseCompletion ae ao w) = Smpctl.aerr w ∧
    Smpctl.aovr (raiseCompletion ae ao w) = Smpctl.aovr w ∧
    Smpctl.cpend (raiseCompletion ae ao w) = true ∧
    Smpctl.cerr (raiseCompletion ae ao w) = (Smpctl.cerr w || ae) ∧
    Smpctl.covr (raiseCompletion ae ao w) = (Smpctl.covr w || ao || Smpctl.cpend w) ∧
    getField 11 21 (raiseCompletion ae ao w) = getField 11 21 w := by
  simp [raiseCompletion]

@[simp] theorem driveAxes_fields (p : Dir × Dir) (w : Word) :
    Out.foc (driveAxes p w) = Out.foc w ∧
    Out.axa (driveAxes p w) = p.1.code ∧
    Out.axb (driveAxes p w) = p.2.code ∧
    getField 6 26 (driveAxes p w) = getField 6 26 w := by
  simp [driveAxes]

/-! What a step can do to STAT (R25). -/

theorem exec_stat_cases {i : Instr} {s t : State} (h : exec i s = .next t) :
    t.stat = s.stat ∨ (i = .reset ∧ t.stat = (resetState s).stat) ∨ (∃ b, i = .aggQuery b ∧ t.stat = Stat.setSmpOvr false s.stat) ∨
    (i = .isrSeq ∧ t.stat = Stat.setSeqNst false s.stat) ∨ (i = .isrSmp ∧ t.stat = (samplerHandler s).stat) := by
  cases i with
  | reset => obtain ⟨-, rfl⟩ := (reset_next_iff _ _).mp h; exact .inr (.inl ⟨rfl, rfl⟩)
  | aggQuery b => obtain ⟨-, rfl⟩ := (aggQuery_next_iff _ _ _).mp h; simp
  | isrSeq => obtain ⟨-, -, rfl⟩ := (isrSeq_next_iff _ _).mp h; simp [settleHandler]
  | isrSmp => obtain ⟨-, -, rfl⟩ := (isrSmp_next_iff _ _).mp h; simp
  | _ => exact .inl (exec_reg_of_not_written h (r := .stat) (by simp [writes]))

/-- The flags after the completion handler: an overrun sets SMP_OVR (R155), SMP_ERR follows the completion, SMP_NST is cleared
by a success before the first one (R151, R152), and SEQ_NST is not the sampler's. -/
theorem samplerHandler_flags (s : State) :
    Stat.smpOvr (samplerHandler s).stat = (Smpctl.covr s.smpctl || Stat.smpOvr s.stat) ∧
    Stat.smpErr (samplerHandler s).stat = Smpctl.cerr s.smpctl ∧
    Stat.smpNst (samplerHandler s).stat =
      ((Smpctl.cerr s.smpctl || Smpctl.first s.smpctl) && Stat.smpNst s.stat) ∧
    Stat.seqNst (samplerHandler s).stat = Stat.seqNst s.stat := by
  rw [samplerHandler_eq]
  cases Smpctl.cerr s.smpctl <;> cases Smpctl.first s.smpctl <;> cases Smpctl.covr s.smpctl <;> simp

/-- The flags right after RESET (R40): both NotStarted flags are set, Overrun and Error clear. -/
theorem resetStat_flags (s : State) : Stat.smpOvr (resetState s).stat = false ∧ Stat.smpErr (resetState s).stat = false ∧
    Stat.smpNst (resetState s).stat = true ∧ Stat.seqNst (resetState s).stat = true := by
  simp only [resetState_fields]
  decide

/-- SMP_OVR is set by ISR_SMP and cleared by AGG_QUERY and RESET (R155, R185). -/
theorem exec_smpOvr_cases {i : Instr} {s t : State} (h : exec i s = .next t) :
    Stat.smpOvr t.stat = Stat.smpOvr s.stat ∨ (i = .isrSmp ∧ Stat.smpOvr t.stat = true) ∨
    (((∃ b, i = .aggQuery b) ∨ i = .reset) ∧ Stat.smpOvr t.stat = false) := by
  rcases exec_stat_cases h with hstat | ⟨hi, hstat⟩ | ⟨b, hi, hstat⟩ | ⟨-, hstat⟩ | ⟨hi, hstat⟩ <;> rw [hstat]
  · exact .inl rfl
  · exact .inr (.inr ⟨.inr hi, by simp [resetStat_flags, -resetState_fields]⟩)
  · exact .inr (.inr ⟨.inl ⟨b, hi⟩, by simp⟩)
  · exact .inl (by simp)
  · cases hcovr : Smpctl.covr s.smpctl <;> simp [samplerHandler_flags, hcovr, hi]

/-- SMP_ERR is the sampler handler's (R151, R152). -/
theorem exec_smpErr_cases {i : Instr} {s t : State} (h : exec i s = .next t) :
    Stat.smpErr t.stat = Stat.smpErr s.stat ∨ i = .isrSmp ∨ i = .reset := by
  rcases exec_stat_cases h with hstat | ⟨hi, -⟩ | ⟨b, -, hstat⟩ | ⟨-, hstat⟩ | ⟨hi, -⟩
  · exact .inl (by rw [hstat])
  · exact .inr (.inr hi)
  · exact .inl (by simp [hstat])
  · exact .inl (by simp [hstat])
  · exact .inr (.inl hi)

/-- SMP_NST is set by RESET alone, and cleared by ISR_SMP alone (R152). -/
theorem exec_smpNst_cases {i : Instr} {s t : State} (h : exec i s = .next t) :
    Stat.smpNst t.stat = Stat.smpNst s.stat ∨ (i = .isrSmp ∧ Stat.smpNst t.stat = false) ∨
    (i = .reset ∧ Stat.smpNst t.stat = true) := by
  rcases exec_stat_cases h with hstat | ⟨hi, hstat⟩ | ⟨b, -, hstat⟩ | ⟨-, hstat⟩ | ⟨hi, hstat⟩ <;> rw [hstat]
  · exact .inl rfl
  · exact .inr (.inr ⟨hi, by simp [resetStat_flags, -resetState_fields]⟩)
  · exact .inl (by simp)
  · exact .inl (by simp)
  · cases hkeep : Smpctl.cerr s.smpctl || Smpctl.first s.smpctl <;> simp [samplerHandler_flags, hkeep, hi]

/-- SEQ_NST is set by RESET alone, and cleared by ISR_SEQ alone (R215). -/
theorem exec_seqNst_cases {i : Instr} {s t : State} (h : exec i s = .next t) :
    Stat.seqNst t.stat = Stat.seqNst s.stat ∨ (i = .isrSeq ∧ Stat.seqNst t.stat = false) ∨
    (i = .reset ∧ Stat.seqNst t.stat = true) := by
  rcases exec_stat_cases h with hstat | ⟨hi, hstat⟩ | ⟨b, -, hstat⟩ | ⟨hi, hstat⟩ | ⟨-, hstat⟩ <;> rw [hstat]
  · exact .inl rfl
  · exact .inr (.inr ⟨hi, by simp [resetStat_flags, -resetState_fields]⟩)
  · exact .inl (by simp)
  · exact .inr (.inl ⟨hi, by simp⟩)
  · exact .inl (by simp [samplerHandler_flags])

end Sys2Proof.Machine
end

section
/-! The family 10_state.md: the reserved and the hardwired bits (O53). -/

namespace Sys2Proof.Machine

theorem microStep_keeps_reservedClear {s u : State} (hs : ReservedClear s) (h : microStep s = some u) :
    ReservedClear u := by
  obtain ⟨hstat, hsmp, hseq, hout, hmain, hmain', hbus⟩ := hs
  rcases microStep_cases s u h with ⟨-, rfl⟩ | ⟨-, rfl⟩ | ⟨-, rfl⟩ | ⟨-, rfl⟩ | ⟨-, rfl⟩ | ⟨-, rfl⟩ | ⟨-, rfl⟩ | ⟨-, rfl⟩ |
    ⟨-, rfl⟩ | ⟨-, rfl⟩ | ⟨-, rfl⟩
  · simp [ReservedClear, microM0, *]
  · simp [ReservedClear, microM1, *]
  · simp [ReservedClear, microM2, *]
  · refine ⟨hstat, hsmp, hseq, ?_, by simp [microM3, hmain], by simp [microM3, hmain'], hbus⟩
    dsimp only [microM3]
    split <;> simp [hout]
  · simp [ReservedClear, microM4, *]
  · simp only [ReservedClear, microM5]
    split <;> simp [*]
  · simp [ReservedClear, microSp1, *]
  · simp [ReservedClear, microSp2, *]
  · simp [ReservedClear, microSp3_eq, *]
  · simp [ReservedClear, microSp4, *]
  · simp [ReservedClear, microSp5, *]

theorem samplerHandler_keeps_reservedClear {s : State} (hs : ReservedClear s) : ReservedClear (samplerHandler s) := by
  obtain ⟨hstat, hsmp, hrest⟩ := hs
  rw [samplerHandler_eq]
  refine ⟨?_, ?_, hrest⟩ <;> dsimp only
  · cases Smpctl.cerr s.smpctl <;> cases Smpctl.first s.smpctl <;> cases Smpctl.covr s.smpctl <;> simp [hstat]
  · split <;> simp [hsmp]

theorem powerOn_reservedClear (cfg : Params) (draws : Nat) : ReservedClear (State.powerOn cfg draws) := by
  simp only [ReservedClear, State.powerOn]
  decide

theorem arrive_keeps_reservedClear {s : State} (hs : ReservedClear s) (kind : Bool) (d : Word) :
    ReservedClear (arrive kind d s) := by
  obtain ⟨hstat, hsmp, hseq, hout, hmain, hmain', hbus⟩ := hs
  rw [arrive_eq]
  refine ⟨hstat, hsmp, hseq, hout, hmain, hmain', ?_⟩
  dsimp only
  split <;> simp [hbus]

theorem exec_keeps_reservedClear (i : Instr) (s t : State) (hs : ReservedClear s) (h : exec i s = .next t) :
    ReservedClear t := by
  have ⟨hstat, hsmp, hseq, hout, hmain, hmain', hbus⟩ := hs
  cases i with
  | reset =>
    obtain ⟨-, rfl⟩ := (reset_next_iff _ _).mp h
    exact powerOn_reservedClear s.cfg s.draws
  | samplerInit =>
    obtain ⟨-, rfl⟩ := (samplerInit_next_iff _ _).mp h
    simp only [ReservedClear, samplerInit_eq]
    split <;> simp [*]
  | seqStart =>
    obtain ⟨-, rfl⟩ := (seqStart_next_iff _ _).mp h
    simp only [ReservedClear, seqStart_eq]
    split <;> simp [*]
  | mainStart =>
    obtain ⟨-, rfl⟩ := (mainStart_next_iff _ _).mp h
    simp only [ReservedClear, mainStart_eq]
    split <;> simp [*]
  | busCmd d =>
    obtain ⟨-, rfl⟩ := (busCmd_next_iff _ _ _).mp h
    exact arrive_keeps_reservedClear hs false d
  | busStatreq =>
    obtain ⟨-, rfl⟩ := (busStatreq_next_iff _ _).mp h
    exact arrive_keeps_reservedClear hs true 0
  | txDone a e =>
    obtain ⟨-, -, rfl⟩ := (txDone_next_iff _ _ _ _).mp h
    simp [ReservedClear, *]
  | aggQuery b =>
    obtain ⟨-, rfl⟩ := (aggQuery_next_iff _ _ _).mp h
    simp [ReservedClear, *]
  | smpStatus => obtain ⟨-, rfl⟩ := (smpStatus_next_iff _ _).mp h; exact hs
  | seqStatus => obtain ⟨-, rfl⟩ := (seqStatus_next_iff _ _).mp h; exact hs
  | readTargets => obtain ⟨-, rfl⟩ := (readTargets_next_iff _ _).mp h; exact hs
  | readSample c => obtain ⟨-, v, -, rfl⟩ := (readSample_next_iff _ _ _).mp h; exact hs
  | trgTick =>
    obtain ⟨-, -, rfl⟩ := (trgTick_next_iff _ _).mp h
    simp only [ReservedClear, trgTick_eq]
    split <;> simp [*]
  | conv v e o =>
    obtain ⟨-, -, rfl⟩ := (conv_next_iff _ _ _ _ _).mp h
    simp only [ReservedClear, convert_eq]
    split <;> simp [*]
  | settleTick =>
    obtain ⟨-, -, rfl⟩ := (settleTick_next_iff _ _).mp h
    simp only [ReservedClear, settleTick]
    split <;> simp [*]
  | isrSmp =>
    obtain ⟨-, -, rfl⟩ := (isrSmp_next_iff _ _).mp h
    exact samplerHandler_keeps_reservedClear hs
  | isrSeq =>
    obtain ⟨-, -, rfl⟩ := (isrSeq_next_iff _ _).mp h
    simp [ReservedClear, settleHandler, *]
  | isrBus =>
    obtain ⟨-, -, rfl⟩ := (isrBus_next_iff _ _).mp h
    simp only [ReservedClear, busHandler_eq]
    split <;> simp [*]
  | mainStep =>
    obtain ⟨-, -, u, hu, rfl⟩ := (mainStep_next_iff _ _).mp h
    exact (microStep_keeps_reservedClear hs hu : ReservedClear u)

/-- Settles O53, operation by operation. -/
theorem everyStepKeepsReservedBitsClear : Obligations.EveryStepKeepsReservedBitsClear :=
  fun _ _ hs h => step_keeps (fun _ _ hs => hs) exec_keeps_reservedClear hs h

end Sys2Proof.Machine
end

section
/-! The family 10_state.md: the sampler and the focus target (O54). -/

namespace Sys2Proof.Machine

/-! The focus target and the scaled position (R23, R35, R140). -/

theorem scale_le_of_sample (p : Params) (raw : SampleWord) : (scale p raw).toNat ≤ p.mask / p.scale := by
  rw [scale_toNat]
  exact Nat.div_le_div_right Nat.and_le_right

/-- R8's last condition: a scaled position is a focus target (R140). -/
theorem scale_le_focusMax {p : Params} (h : p.legal = true) (raw : SampleWord) : (scale p raw).toNat ≤ p.focusMax := by
  obtain ⟨-, -, -, -, -, hmax⟩ := (legal_iff p).mp h
  exact (scale_le_of_sample p raw).trans hmax

/-- FT is written by the seed and by a Command whose field is in range, and by nothing else but RESET (R23). -/
theorem exec_keeps_ft_le {i : Instr} {s t : State} (h : exec i s = .next t) (hs : s.ft.toNat ≤ s.cfg.focusMax) :
    t.ft.toNat ≤ t.cfg.focusMax := by
  cases i with
  | reset => obtain ⟨-, rfl⟩ := (reset_next_iff _ _).mp h; simp
  | isrSmp =>
    obtain ⟨hlegal, -, rfl⟩ := (isrSmp_next_iff _ _).mp h
    rw [samplerHandler_eq]
    dsimp only
    split
    · exact hs
    · exact scale_le_focusMax hlegal s.smp0
  | isrBus =>
    obtain ⟨-, -, rfl⟩ := (isrBus_next_iff _ _).mp h
    rw [busHandler_eq]
    dsimp only
    split
    case isTrue hfoc => exact hfoc.2
    case isFalse => exact hs
  | _ =>
    have hft : t.ft = s.ft := exec_reg_of_not_written h (r := .ft) (by simp [writes])
    rwa [hft, exec_cfg h]

/-! The trigger counter (R30, R143). -/

theorem exec_keeps_trgcnt_lt {i : Instr} {s t : State} (h : exec i s = .next t)
    (hs : s.trgcnt.toNat < s.cfg.samplePeriod) : t.trgcnt.toNat < t.cfg.samplePeriod := by
  have hperiod : 0 < s.cfg.samplePeriod := by omega
  cases i with
  | reset => obtain ⟨-, rfl⟩ := (reset_next_iff _ _).mp h; simpa using hperiod
  | samplerInit =>
    obtain ⟨-, rfl⟩ := (samplerInit_next_iff _ _).mp h
    rw [samplerInit_eq]
    dsimp only
    split
    · exact hperiod
    · exact hs
  | trgTick =>
    obtain ⟨-, -, rfl⟩ := (trgTick_next_iff _ _).mp h
    rw [trgTick_eq]
    dsimp only
    split
    · exact hperiod
    case isFalse hedge =>
      rw [BitVec.toNat_add]
      exact (Nat.mod_le _ _).trans_lt (by simp; omega)
  | _ =>
    have htrg : t.trgcnt = s.trgcnt := exec_reg_of_not_written h (r := .trgcnt) (by simp [writes])
    rwa [htrg, exec_cfg h]

/-! SMPCTL (R29), together with the flag SMP_NST that FIRST mirrors (R41). -/

/-- What `SamplerInv` says of SMPCTL, when SMP_NST is `nst`. -/
def SmpctlInv (nst : Bool) (w : Word) : Prop :=
  Smpctl.sst w ≠ 3#2 ∧ Smpctl.wix w ≠ 3#2 ∧ Smpctl.first w = !nst ∧
    (Smpctl.sst w ≠ sstSampling → Smpctl.busy w = false ∧ Smpctl.cpend w = false ∧ Smpctl.first w = false) ∧
    (Smpctl.busy w = false → Smpctl.wix w = 0#2 ∧ Smpctl.aerr w = false ∧ Smpctl.aovr w = false) ∧
    (Smpctl.cpend w = false → Smpctl.cerr w = false ∧ Smpctl.covr w = false)

theorem samplerInv_iff (s : State) : SamplerInv s ↔ s.cfg.legal = true ∧ s.ft.toNat ≤ s.cfg.focusMax ∧
    s.trgcnt.toNat < s.cfg.samplePeriod ∧ SmpctlInv (Stat.smpNst s.stat) s.smpctl := by
  unfold SamplerInv SmpctlInv
  tauto

theorem smpctlInv_reset : SmpctlInv (Stat.smpNst 0x120) 0 := by
  unfold SmpctlInv
  decide

section
variable {nst : Bool} {w : Word}

/-- Arming an idle sampler (R142). -/
theorem SmpctlInv.arm (hw : SmpctlInv nst w) (hidle : Smpctl.sst w = sstIdle) :
    SmpctlInv nst (w |> Smpctl.setSst sstArmed |> Smpctl.setWix 0 |> Smpctl.setBusy false |> Smpctl.setAerr false
      |> Smpctl.setAovr false) := by
  obtain ⟨-, -, hfirst, hbefore, -, hpend⟩ := hw
  obtain ⟨-, hcpend, hfirst0⟩ := hbefore (by rw [hidle]; decide)
  have h3 : sstArmed ≠ 3#2 := by decide
  simpa [SmpctlInv, h3, hcpend, hfirst0, hpend hcpend] using hfirst

/-- A trigger edge of a sampler that is not idle (R144). -/
theorem SmpctlInv.edge (hw : SmpctlInv nst w) (hsst : Smpctl.sst w ≠ sstIdle) : SmpctlInv nst (triggerEdge w) := by
  obtain ⟨hsst3, hwix, hfirst, -, -, hpend⟩ := hw
  have key : ∀ x : BitVec 2, x ≠ 3#2 → x ≠ sstIdle → (if x = sstArmed then sstSampling else x) = sstSampling := by decide
  have h3 : sstSampling ≠ 3#2 := by decide
  simp only [SmpctlInv, triggerEdge_fields, key _ hsst3 hsst]
  exact ⟨h3, hwix, hfirst, fun h => absurd rfl h, nofun, hpend⟩

theorem SmpctlInv.sampling_of_busy (hw : SmpctlInv nst w) (hbusy : Smpctl.busy w = true) :
    Smpctl.sst w = sstSampling := by
  obtain ⟨-, -, -, hbefore, -, -⟩ := hw
  by_contra hne
  simp [hbefore hne] at hbusy

theorem SmpctlInv.sampling_of_cpend (hw : SmpctlInv nst w) (hcpend : Smpctl.cpend w = true) :
    Smpctl.sst w = sstSampling := by
  obtain ⟨-, -, -, hbefore, -, -⟩ := hw
  by_contra hne
  simp [hbefore hne] at hcpend

/-- A conversion of channel 0 or 1 (R146). -/
theorem SmpctlInv.deposit (hw : SmpctlInv nst w) (hbusy : Smpctl.busy w = true) (hwix : (Smpctl.wix w).toNat < 2)
    (ae ao : Bool) :
    SmpctlInv nst (w |> Smpctl.setWix (Smpctl.wix w + 1) |> Smpctl.setAerr ae |> Smpctl.setAovr ao) := by
  have hsst := hw.sampling_of_busy hbusy
  have key : ∀ x : BitVec 2, x.toNat < 2 → x + 1 ≠ 3#2 := by decide
  obtain ⟨-, -, hfirst, -, -, hpend⟩ := hw
  simpa [SmpctlInv, hsst, hbusy, hfirst, sstSampling] using ⟨key _ hwix, hpend⟩

/-- The conversion of channel 2 ends the sequence and raises the completion (R146, R148). -/
theorem SmpctlInv.finish (hw : SmpctlInv nst w) (hbusy : Smpctl.busy w = true) (ae ao : Bool) :
    SmpctlInv nst (w |> Smpctl.setWix 0 |> Smpctl.setBusy false |> raiseCompletion ae ao |> Smpctl.setAerr false
      |> Smpctl.setAovr false) := by
  have hsst := hw.sampling_of_busy hbusy
  obtain ⟨-, -, hfirst, -, -, -⟩ := hw
  simp [SmpctlInv, hsst, hfirst, sstSampling]

/-- Entry of the completion handler (R272). -/
theorem SmpctlInv.take (hw : SmpctlInv nst w) :
    SmpctlInv nst (w |> Smpctl.setCpend false |> Smpctl.setCerr false |> Smpctl.setCovr false) := by
  obtain ⟨hsst, hwix, hfirst, hbefore, hbusy, -⟩ := hw
  simp only [SmpctlInv, Smpctl.setCpend_fields, Smpctl.setCerr_fields, Smpctl.setCovr_fields]
  exact ⟨hsst, hwix, hfirst, fun h => ⟨(hbefore h).1, trivial, (hbefore h).2.2⟩, hbusy, fun _ => ⟨trivial, trivial⟩⟩

/-- The first successful completion: FIRST is set as SMP_NST is cleared (R152). -/
theorem SmpctlInv.mark (hw : SmpctlInv nst w) (hsst : Smpctl.sst w = sstSampling) :
    SmpctlInv false (Smpctl.setFirst true w) := by
  obtain ⟨-, hwix, -, -, hbusy, hpend⟩ := hw
  simp only [SmpctlInv, Smpctl.setFirst_fields, hsst]
  exact ⟨by decide, hwix, rfl, fun h => absurd rfl h, hbusy, hpend⟩

end

theorem samplerHandler_keeps_smpctlInv {s : State} (hs : SmpctlInv (Stat.smpNst s.stat) s.smpctl)
    (hcpend : Smpctl.cpend s.smpctl = true) :
    SmpctlInv (Stat.smpNst (samplerHandler s).stat) (samplerHandler s).smpctl := by
  obtain ⟨-, -, hnst, -⟩ := samplerHandler_flags s
  rw [hnst, samplerHandler_eq]
  cases Smpctl.cerr s.smpctl || Smpctl.first s.smpctl
  case true => exact hs.take
  case false => exact hs.take.mark (by simpa using hs.sampling_of_cpend hcpend)

theorem exec_keeps_smpctlInv {i : Instr} {s t : State} (h : exec i s = .next t)
    (hs : SmpctlInv (Stat.smpNst s.stat) s.smpctl) : SmpctlInv (Stat.smpNst t.stat) t.smpctl := by
  cases i with
  | reset => obtain ⟨-, rfl⟩ := (reset_next_iff _ _).mp h; exact smpctlInv_reset
  | samplerInit =>
    obtain ⟨-, rfl⟩ := (samplerInit_next_iff _ _).mp h
    rw [samplerInit_eq]
    dsimp only
    split
    case isTrue hidle => exact hs.arm hidle
    case isFalse => exact hs
  | trgTick =>
    obtain ⟨-, hsst, rfl⟩ := (trgTick_next_iff _ _).mp h
    rw [trgTick_eq]
    dsimp only
    split
    · exact hs.edge hsst
    · exact hs
  | conv v e o =>
    obtain ⟨-, hbusy, rfl⟩ := (conv_next_iff _ _ _ _ _).mp h
    rw [convert_eq]
    dsimp only
    split
    case isTrue hwix => exact hs.deposit hbusy hwix _ _
    case isFalse => exact hs.finish hbusy _ _
  | isrSmp =>
    obtain ⟨-, ⟨hcpend, -⟩, rfl⟩ := (isrSmp_next_iff _ _).mp h
    exact samplerHandler_keeps_smpctlInv hs hcpend
  | aggQuery b => obtain ⟨-, rfl⟩ := (aggQuery_next_iff _ _ _).mp h; simpa using hs
  | isrSeq => obtain ⟨-, -, rfl⟩ := (isrSeq_next_iff _ _).mp h; simpa [settleHandler] using hs
  | _ =>
    have hsmp : t.smpctl = s.smpctl := exec_reg_of_not_written h (r := .smpctl) (by simp [writes])
    have hstat : t.stat = s.stat := exec_reg_of_not_written h (r := .stat) (by simp [writes])
    rwa [hsmp, hstat]

theorem exec_keeps_samplerInv (i : Instr) (s t : State) (hs : SamplerInv s) (h : exec i s = .next t) : SamplerInv t := by
  obtain ⟨hlegal, hft, htrg, hsmp⟩ := (samplerInv_iff s).mp hs
  exact (samplerInv_iff t).mpr
    ⟨exec_cfg h ▸ hlegal, exec_keeps_ft_le h hft, exec_keeps_trgcnt_lt h htrg, exec_keeps_smpctlInv h hsmp⟩

/-- Settles O54. -/
theorem everyStepKeepsSamplerInvariant : Obligations.EveryStepKeepsSamplerInvariant :=
  fun _ _ hs h => step_keeps (fun _ _ hs => hs) exec_keeps_samplerInv hs h

end Sys2Proof.Machine
end

section
/-! The family 10_state.md: the sequencer, the main loop and the outputs (O55). -/

namespace Sys2Proof.Machine

/-! The parts of the control invariant. -/

/-- No output is coded 3 (R33, R100). -/
def OutputsLegal (s : State) : Prop := Out.foc s.out ≠ 3#2 ∧ Out.axa s.out ≠ 3#2 ∧ Out.axb s.out ≠ 3#2

/-- The codes the sequencer and the main loop hold: phases below 3, a micro-step that exists (R31, R34, R36). -/
def CodesLegal (s : State) : Prop :=
  Seqctl.cp s.seqctl ≠ 3#2 ∧ Mainctl.tgt s.mainctl ≠ 3#2 ∧ (Mainctl.mpc s.mainctl).toNat ≤ 10

/-- STCNT is within the period, and below it while the timer runs (R32, R210). -/
def TimerInv (s : State) : Prop :=
  s.stcnt.toNat ≤ s.cfg.settleTicks ∧ (Seqctl.sten s.seqctl = true → s.stcnt.toNat < s.cfg.settleTicks)

/-- Until SEQ_START the sequencer is NotStarted, its timer stopped and its line clear (R205, R215). -/
def UnstartedInv (s : State) : Prop :=
  Seqctl.started s.seqctl = false →
    Stat.seqNst s.stat = true ∧ Seqctl.sten s.seqctl = false ∧ Seqctl.stelapsed s.seqctl = false

/-- A setPhase runs only behind the open sequencer gate (R248, R249), moves to another phase until SP4 commits it (R231, R234),
and has the settle timer stopped at 0 from SP3 on (R232). -/
def SetPhaseInv (s : State) : Prop :=
  (Mainctl.mpc s.mainctl = 5#4 ∧ Mainctl.g s.mainctl = true → Stat.seqNst s.stat = false) ∧
    (6 ≤ (Mainctl.mpc s.mainctl).toNat → Stat.seqNst s.stat = false) ∧
    (7 ≤ (Mainctl.mpc s.mainctl).toNat ∧ (Mainctl.mpc s.mainctl).toNat ≤ 9 →
      Seqctl.cp s.seqctl ≠ Mainctl.tgt s.mainctl) ∧
    (8 ≤ (Mainctl.mpc s.mainctl).toNat → Seqctl.sten s.seqctl = false ∧ s.stcnt = 0#32)

theorem controlInv_iff (s : State) : ControlInv s ↔ s.cfg.legal = true ∧ s.rt.toNat ≤ 2 ∧ OutputsLegal s ∧
    CodesLegal s ∧ TimerInv s ∧ UnstartedInv s ∧ SetPhaseInv s := by
  unfold ControlInv OutputsLegal CodesLegal TimerInv UnstartedInv SetPhaseInv
  tauto

/-! The rotary target (R24, R175). -/

theorem validPhase_toNat_le {r : Word} (h : validPhase r = true) : r.toNat ≤ 2 := by
  simp only [validPhase, Bool.or_eq_true, beq_iff_eq] at h
  rcases h with (rfl | rfl) | rfl <;> decide

theorem exec_keeps_rt_le {i : Instr} {s t : State} (h : exec i s = .next t) (hs : s.rt.toNat ≤ 2) : t.rt.toNat ≤ 2 := by
  cases i with
  | reset => obtain ⟨-, rfl⟩ := (reset_next_iff _ _).mp h; simp
  | isrBus =>
    obtain ⟨-, -, rfl⟩ := (isrBus_next_iff _ _).mp h
    rw [busHandler_eq]
    dsimp only
    split
    case isTrue hrot => exact validPhase_toNat_le hrot.2
    case isFalse => exact hs
  | _ =>
    have hrt : t.rt = s.rt := exec_reg_of_not_written h (r := .rt) (by simp [writes])
    rwa [hrt]

/-- What M5 latches of a rotary target in range is a phase (R249). -/
theorem targetCode_ne_three {r : Word} (h : r.toNat ≤ 2) : r.extractLsb' 0 2 ≠ 3#2 := by
  intro h3
  have hval := congrArg BitVec.toNat h3
  simp at hval
  omega

/-! The outputs (R33, R100). -/

theorem driveAxes_outputsLegal {s : State} (hs : OutputsLegal s) (p : Dir × Dir) :
    OutputsLegal { s with out := driveAxes p s.out } := by
  simpa [OutputsLegal, dir_code_ne_three] using hs.1

/-- The micro-steps that write OUT are M3 and SP3 (R247, R233). -/
theorem microStep_out_cases {s u : State} (h : microStep s = some u) :
    u.out = s.out ∨ (∃ d : Dir, u.out = Out.setFoc d.code s.out) ∨ (∃ p, u.out = driveAxes p s.out) := by
  rcases microStep_cases s u h with ⟨-, rfl⟩ | ⟨-, rfl⟩ | ⟨-, rfl⟩ | ⟨-, rfl⟩ | ⟨-, rfl⟩ | ⟨-, rfl⟩ | ⟨-, rfl⟩ | ⟨-, rfl⟩ |
    ⟨-, rfl⟩ | ⟨-, rfl⟩ | ⟨-, rfl⟩
  case inr.inr.inr.inl =>
    simp only [microM3]
    split
    · exact .inr (.inl ⟨_, rfl⟩)
    · exact .inl rfl
  case inr.inr.inr.inr.inr.inr.inr.inr.inl =>
    rw [microSp3_eq]
    exact .inr (.inr ⟨_, rfl⟩)
  all_goals exact .inl rfl

theorem microStep_keeps_outputsLegal {s u : State} (hs : OutputsLegal s) (h : microStep s = some u) : OutputsLegal u := by
  unfold OutputsLegal
  rcases microStep_out_cases h with hout | ⟨d, hout⟩ | ⟨p, hout⟩ <;> rw [hout]
  · exact hs
  · simpa [dir_code_ne_three] using hs.2
  · exact driveAxes_outputsLegal hs p

theorem powerOn_outputsLegal (cfg : Params) (draws : Nat) : OutputsLegal (State.powerOn cfg draws) := by
  simp only [OutputsLegal, State.powerOn]
  decide

theorem exec_keeps_outputsLegal {i : Instr} {s t : State} (h : exec i s = .next t) (hs : OutputsLegal s) :
    OutputsLegal t := by
  cases i with
  | reset =>
    obtain ⟨-, rfl⟩ := (reset_next_iff _ _).mp h
    exact powerOn_outputsLegal s.cfg s.draws
  | seqStart =>
    obtain ⟨-, rfl⟩ := (seqStart_next_iff _ _).mp h
    rw [seqStart_eq]
    simp only [OutputsLegal]
    split
    · exact hs
    · exact driveAxes_outputsLegal hs _
  | isrSeq =>
    obtain ⟨-, -, rfl⟩ := (isrSeq_next_iff _ _).mp h
    exact driveAxes_outputsLegal hs _
  | mainStep =>
    obtain ⟨-, -, u, hu, rfl⟩ := (mainStep_next_iff _ _).mp h
    exact (microStep_keeps_outputsLegal hs hu : OutputsLegal u)
  | _ =>
    have hout : t.out = s.out := exec_reg_of_not_written h (r := .out) (by simp [writes])
    rwa [OutputsLegal, hout]

/-! The codes (R31, R34, R36). -/

theorem microStep_keeps_codesLegal {s u : State} (hs : CodesLegal s) (hrt : s.rt.toNat ≤ 2) (h : microStep s = some u) :
    CodesLegal u := by
  obtain ⟨hcp, htgt, -⟩ := hs
  rcases microStep_cases s u h with ⟨-, rfl⟩ | ⟨-, rfl⟩ | ⟨-, rfl⟩ | ⟨-, rfl⟩ | ⟨-, rfl⟩ | ⟨-, rfl⟩ | ⟨-, rfl⟩ | ⟨-, rfl⟩ |
    ⟨-, rfl⟩ | ⟨-, rfl⟩ | ⟨-, rfl⟩
  · simp [CodesLegal, microM0, *]
  · simp [CodesLegal, microM1, *]
  · simp [CodesLegal, microM2, *]
  · simp [CodesLegal, microM3, *]
  · simp [CodesLegal, microM4, *]
  · simp only [CodesLegal, microM5]
    split
    · simpa [hcp] using targetCode_ne_three hrt
    · simp [hcp, htgt]
  · simp only [CodesLegal, microSp1]
    split <;> simp [*]
  · simp [CodesLegal, microSp2, *]
  · simp [CodesLegal, microSp3_eq, *]
  · simp [CodesLegal, microSp4, *]
  · simp [CodesLegal, microSp5, *]

theorem powerOn_codesLegal (cfg : Params) (draws : Nat) : CodesLegal (State.powerOn cfg draws) := by
  simp only [CodesLegal, State.powerOn]
  decide

theorem exec_keeps_codesLegal {i : Instr} {s t : State} (h : exec i s = .next t) (hs : CodesLegal s)
    (hrt : s.rt.toNat ≤ 2) : CodesLegal t := by
  cases i with
  | reset =>
    obtain ⟨-, rfl⟩ := (reset_next_iff _ _).mp h
    exact powerOn_codesLegal s.cfg s.draws
  | seqStart =>
    obtain ⟨-, rfl⟩ := (seqStart_next_iff _ _).mp h
    rw [seqStart_eq]
    simp only [CodesLegal]
    split
    · exact hs
    · simpa using hs.2
  | mainStart =>
    obtain ⟨-, rfl⟩ := (mainStart_next_iff _ _).mp h
    rw [mainStart_eq]
    simp only [CodesLegal]
    split
    · exact hs
    · obtain ⟨hcp, htgt, -⟩ := hs
      simpa using ⟨hcp, htgt⟩
  | settleTick =>
    obtain ⟨-, -, rfl⟩ := (settleTick_next_iff _ _).mp h
    simp only [CodesLegal, settleTick]
    split
    · simpa [CodesLegal] using hs
    · exact hs
  | isrSeq => obtain ⟨-, -, rfl⟩ := (isrSeq_next_iff _ _).mp h; simpa [CodesLegal, settleHandler] using hs
  | mainStep =>
    obtain ⟨-, -, u, hu, rfl⟩ := (mainStep_next_iff _ _).mp h
    exact (microStep_keeps_codesLegal hs hrt hu : CodesLegal u)
  | _ =>
    have hseq : t.seqctl = s.seqctl := exec_reg_of_not_written h (r := .seqctl) (by simp [writes])
    have hmain : t.mainctl = s.mainctl := exec_reg_of_not_written h (r := .mainctl) (by simp [writes])
    rwa [CodesLegal, hseq, hmain]

/-! The settle timer (R32, R210). -/

/-- The micro-steps that write SEQCTL or STCNT are SP2, SP4 and SP5 (R232, R234, R235). -/
theorem microStep_sequencer_cases {s u : State} (h : microStep s = some u) :
    (u.seqctl = s.seqctl ∧ u.stcnt = s.stcnt) ∨
    (Mainctl.mpc s.mainctl = 7#4 ∧ u.seqctl = Seqctl.setSten false s.seqctl ∧ u.stcnt = 0) ∨
    (Mainctl.mpc s.mainctl = 9#4 ∧
      u.seqctl = Seqctl.setTip true (Seqctl.setCp (Mainctl.tgt s.mainctl) s.seqctl) ∧ u.stcnt = s.stcnt) ∨
    (Mainctl.mpc s.mainctl = 10#4 ∧ u.seqctl = Seqctl.setSten true s.seqctl ∧ u.stcnt = s.stcnt) := by
  rcases microStep_cases s u h with ⟨-, rfl⟩ | ⟨-, rfl⟩ | ⟨-, rfl⟩ | ⟨-, rfl⟩ | ⟨-, rfl⟩ | ⟨-, rfl⟩ | ⟨-, rfl⟩ |
    ⟨hsp2, rfl⟩ | ⟨-, rfl⟩ | ⟨hsp4, rfl⟩ | ⟨hsp5, rfl⟩
  case inr.inr.inr.inr.inr.inr.inr.inl => exact .inr (.inl ⟨hsp2, rfl, rfl⟩)
  case inr.inr.inr.inr.inr.inr.inr.inr.inl => rw [microSp3_eq]; exact .inl ⟨rfl, rfl⟩
  case inr.inr.inr.inr.inr.inr.inr.inr.inr.inl => exact .inr (.inr (.inl ⟨hsp4, rfl, rfl⟩))
  case inr.inr.inr.inr.inr.inr.inr.inr.inr.inr => exact .inr (.inr (.inr ⟨hsp5, rfl, rfl⟩))
  all_goals exact .inl ⟨rfl, rfl⟩

theorem microStep_keeps_timerInv {s u : State} (hs : TimerInv s) (hset : SetPhaseInv s) (hticks : 0 < s.cfg.settleTicks)
    (h : microStep s = some u) : TimerInv u := by
  unfold TimerInv
  rw [(microStep_sameConfigAndTrace h).1]
  rcases microStep_sequencer_cases h with ⟨hseq, hcnt⟩ | ⟨-, hseq, hcnt⟩ | ⟨-, hseq, hcnt⟩ | ⟨hsp5, hseq, hcnt⟩ <;>
    rw [hseq, hcnt]
  · exact hs
  · simp
  · simpa [TimerInv] using hs
  · obtain ⟨-, -, -, hstopped⟩ := hset
    obtain ⟨-, hzero⟩ := hstopped (by rw [hsp5]; decide)
    simpa [hzero] using hticks

theorem settleTick_timerInv {s : State} (hs : TimerInv s) (hsten : Seqctl.sten s.seqctl = true) :
    TimerInv (settleTick s) := by
  have hlt := hs.2 hsten
  have hcnt : (s.stcnt + 1).toNat ≤ s.stcnt.toNat + 1 := by
    rw [BitVec.toNat_add]
    exact Nat.mod_le _ _
  simp only [TimerInv, settleTick]
  refine ⟨by omega, ?_⟩
  split
  · simp
  · intro; omega

theorem powerOn_timerInv {cfg : Params} (hticks : 0 < cfg.settleTicks) (draws : Nat) :
    TimerInv (State.powerOn cfg draws) := ⟨Nat.zero_le _, fun _ => hticks⟩

theorem exec_keeps_timerInv {i : Instr} {s t : State} (h : exec i s = .next t) (hs : TimerInv s) (hset : SetPhaseInv s) :
    TimerInv t := by
  have hticks : 0 < s.cfg.settleTicks := by
    obtain ⟨-, -, -, hticks, -⟩ := (legal_iff _).mp (exec_legal h)
    exact hticks
  cases i with
  | reset =>
    obtain ⟨-, rfl⟩ := (reset_next_iff _ _).mp h
    exact powerOn_timerInv hticks s.draws
  | seqStart =>
    obtain ⟨-, rfl⟩ := (seqStart_next_iff _ _).mp h
    rw [seqStart_eq]
    simp only [TimerInv]
    split
    · exact hs
    · simpa using hticks
  | settleTick =>
    obtain ⟨-, hsten, rfl⟩ := (settleTick_next_iff _ _).mp h
    exact settleTick_timerInv hs hsten
  | isrSeq => obtain ⟨-, -, rfl⟩ := (isrSeq_next_iff _ _).mp h; simpa [TimerInv, settleHandler] using hs
  | mainStep =>
    obtain ⟨-, -, u, hu, rfl⟩ := (mainStep_next_iff _ _).mp h
    exact (microStep_keeps_timerInv hs hset hticks hu : TimerInv u)
  | _ =>
    have hseq : t.seqctl = s.seqctl := exec_reg_of_not_written h (r := .seqctl) (by simp [writes])
    have hcnt : t.stcnt = s.stcnt := exec_reg_of_not_written h (r := .stcnt) (by simp [writes])
    rwa [TimerInv, hseq, hcnt, exec_cfg h]

/-! The sequencer before SEQ_START (R205). -/

/-- A settle timer that runs, or has elapsed, was started (R205). -/
theorem UnstartedInv.started {s : State} (hs : UnstartedInv s)
    (htimer : Seqctl.sten s.seqctl = true ∨ Seqctl.stelapsed s.seqctl = true) : Seqctl.started s.seqctl = true := by
  by_contra hns
  obtain ⟨-, hsten, helapsed⟩ := hs (by simpa using hns)
  simp [hsten, helapsed] at htimer

/-- A setPhase is under way only after SEQ_START (R226, R249). -/
theorem SetPhaseInv.started {s : State} (hset : SetPhaseInv s) (hs : UnstartedInv s)
    (hmpc : 6 ≤ (Mainctl.mpc s.mainctl).toNat) : Seqctl.started s.seqctl = true := by
  obtain ⟨-, hgate, -, -⟩ := hset
  by_contra hns
  obtain ⟨hnst, -, -⟩ := hs (by simpa using hns)
  simp [hgate hmpc] at hnst

/-- The micro-steps that write SEQCTL are those of a setPhase, which keep STARTED at 1. -/
theorem microStep_keeps_unstartedInv {s u : State} (hs : UnstartedInv s) (hset : SetPhaseInv s) (h : microStep s = some u) :
    UnstartedInv u := by
  have hstat : u.stat = s.stat := microStep_reg_of_not_written h (r := .stat) (by simp [writes])
  unfold UnstartedInv
  rcases microStep_sequencer_cases h with ⟨hseq, -⟩ | ⟨hmpc, hseq, -⟩ | ⟨hmpc, hseq, -⟩ | ⟨hmpc, hseq, -⟩ <;>
    rw [hseq]
  · rwa [hstat]
  all_goals simp [hset.started hs (by rw [hmpc]; decide)]

theorem powerOn_unstartedInv (cfg : Params) (draws : Nat) : UnstartedInv (State.powerOn cfg draws) := by
  simp only [UnstartedInv, State.powerOn]
  decide

theorem exec_keeps_unstartedInv {i : Instr} {s t : State} (h : exec i s = .next t) (hs : UnstartedInv s)
    (hset : SetPhaseInv s) : UnstartedInv t := by
  cases i with
  | reset =>
    obtain ⟨-, rfl⟩ := (reset_next_iff _ _).mp h
    exact powerOn_unstartedInv s.cfg s.draws
  | seqStart =>
    obtain ⟨-, rfl⟩ := (seqStart_next_iff _ _).mp h
    rw [seqStart_eq]
    simp only [UnstartedInv]
    split
    · exact hs
    · simp
  | settleTick =>
    obtain ⟨-, hsten, rfl⟩ := (settleTick_next_iff _ _).mp h
    simp only [UnstartedInv, settleTick]
    split <;> simp [hs.started (.inl hsten)]
  | isrSeq =>
    obtain ⟨-, ⟨helapsed, -⟩, rfl⟩ := (isrSeq_next_iff _ _).mp h
    simp [UnstartedInv, settleHandler, hs.started (.inr helapsed)]
  | mainStep =>
    obtain ⟨-, -, u, hu, rfl⟩ := (mainStep_next_iff _ _).mp h
    exact (microStep_keeps_unstartedInv hs hset hu : UnstartedInv u)
  | _ =>
    have hseq : t.seqctl = s.seqctl := exec_reg_of_not_written h (r := .seqctl) (by simp [writes])
    have hnst : Stat.seqNst t.stat = Stat.seqNst s.stat := by simpa using exec_seqNst_cases h
    rwa [UnstartedInv, hseq, hnst]

/-! The setPhase of the main loop (R231 to R235, R248, R249). -/

theorem sequencerOk_iff (s : State) : sequencerOk s = true ↔ Stat.seqNst s.stat = false := by
  simp [sequencerOk]

theorem microStep_keeps_setPhaseInv {s u : State} (hs : SetPhaseInv s) (h : microStep s = some u) : SetPhaseInv u := by
  obtain ⟨hopen, hgate, hmoves, hstopped⟩ := hs
  rcases microStep_cases s u h with ⟨-, rfl⟩ | ⟨-, rfl⟩ | ⟨-, rfl⟩ | ⟨-, rfl⟩ | ⟨-, rfl⟩ | ⟨hmpc, rfl⟩ | ⟨hmpc, rfl⟩ |
    ⟨hmpc, rfl⟩ | ⟨hmpc, rfl⟩ | ⟨hmpc, rfl⟩ | ⟨-, rfl⟩
  · simp [SetPhaseInv, microM0]
  · simp [SetPhaseInv, microM1]
  · simp [SetPhaseInv, microM2]
  · simp [SetPhaseInv, microM3]
  · simp [SetPhaseInv, microM4, sequencerOk_iff]
  · simp only [SetPhaseInv, microM5]
    split
    case isTrue hg => simp [hopen ⟨hmpc, hg⟩]
    case isFalse => simp
  · simp only [SetPhaseInv, microSp1]
    split
    case isTrue => simp
    case isFalse hne => simpa [hgate (by rw [hmpc]; decide)] using Ne.symm hne
  · simpa [SetPhaseInv, microSp2, hgate (by rw [hmpc]; decide)] using hmoves (by rw [hmpc]; decide)
  · simpa [SetPhaseInv, microSp3_eq, hgate (by rw [hmpc]; decide), hmoves (by rw [hmpc]; decide)] using
      hstopped (by rw [hmpc]; decide)
  · simpa [SetPhaseInv, microSp4, hgate (by rw [hmpc]; decide)] using hstopped (by rw [hmpc]; decide)
  · simp [SetPhaseInv, microSp5]

theorem powerOn_setPhaseInv (cfg : Params) (draws : Nat) : SetPhaseInv (State.powerOn cfg draws) := by
  simp only [SetPhaseInv, State.powerOn]
  decide

theorem exec_keeps_setPhaseInv {i : Instr} {s t : State} (h : exec i s = .next t) (hs : SetPhaseInv s)
    (hun : UnstartedInv s) : SetPhaseInv t := by
  cases i with
  | reset =>
    obtain ⟨-, rfl⟩ := (reset_next_iff _ _).mp h
    exact powerOn_setPhaseInv s.cfg s.draws
  | seqStart =>
    obtain ⟨-, rfl⟩ := (seqStart_next_iff _ _).mp h
    rw [seqStart_eq]
    simp only [SetPhaseInv]
    cases hst : Seqctl.started s.seqctl
    case true => exact hs
    case false =>
      have hmpc : ¬ 6 ≤ (Mainctl.mpc s.mainctl).toNat := fun hmpc => by simp [hs.started hun hmpc] at hst
      obtain ⟨hopen, hgate, -, -⟩ := hs
      exact ⟨hopen, hgate, by omega, by omega⟩
  | mainStart =>
    obtain ⟨-, rfl⟩ := (mainStart_next_iff _ _).mp h
    rw [mainStart_eq]
    simp only [SetPhaseInv]
    split
    · exact hs
    · simp
  | settleTick =>
    obtain ⟨-, hsten, rfl⟩ := (settleTick_next_iff _ _).mp h
    obtain ⟨hopen, hgate, hmoves, hstopped⟩ := hs
    have hmpc : ¬ 8 ≤ (Mainctl.mpc s.mainctl).toNat := by
      intro hmpc
      simp [hstopped hmpc] at hsten
    simp only [SetPhaseInv, settleTick]
    refine ⟨hopen, hgate, ?_, fun h8 => absurd h8 hmpc⟩
    split
    · simpa using hmoves
    · exact hmoves
  | isrSeq =>
    obtain ⟨-, -, rfl⟩ := (isrSeq_next_iff _ _).mp h
    simpa [SetPhaseInv, settleHandler] using hs.2.2
  | mainStep =>
    obtain ⟨-, -, u, hu, rfl⟩ := (mainStep_next_iff _ _).mp h
    exact (microStep_keeps_setPhaseInv hs hu : SetPhaseInv u)
  | _ =>
    have hseq : t.seqctl = s.seqctl := exec_reg_of_not_written h (r := .seqctl) (by simp [writes])
    have hcnt : t.stcnt = s.stcnt := exec_reg_of_not_written h (r := .stcnt) (by simp [writes])
    have hmain : t.mainctl = s.mainctl := exec_reg_of_not_written h (r := .mainctl) (by simp [writes])
    have hnst : Stat.seqNst t.stat = Stat.seqNst s.stat := by simpa using exec_seqNst_cases h
    rwa [SetPhaseInv, hseq, hcnt, hmain, hnst]

/-! The whole of it. -/

theorem exec_keeps_controlInv (i : Instr) (s t : State) (hs : ControlInv s) (h : exec i s = .next t) : ControlInv t := by
  obtain ⟨hlegal, hrt, hout, hcodes, htimer, hun, hset⟩ := (controlInv_iff s).mp hs
  exact (controlInv_iff t).mpr
    ⟨exec_cfg h ▸ hlegal, exec_keeps_rt_le h hrt, exec_keeps_outputsLegal h hout, exec_keeps_codesLegal h hcodes hrt,
      exec_keeps_timerInv h htimer hset, exec_keeps_unstartedInv h hun hset, exec_keeps_setPhaseInv h hset hun⟩

/-- Settles O55. -/
theorem everyStepKeepsControlInvariant : Obligations.EveryStepKeepsControlInvariant :=
  fun _ _ hs h => step_keeps (fun _ _ hs => hs) exec_keeps_controlInv hs h

end Sys2Proof.Machine
end

section
/-! The family 10_state.md: the latched values and the bus port (O56). -/

namespace Sys2Proof.Machine

/-! The latches of the main loop (R35, R244, R245). -/

/-- The micro-steps that write PV and FTL are M0 and M1. -/
theorem microStep_latches_cases {s u : State} (h : microStep s = some u) :
    (u.pv = s.pv ∨ u.pv = scale s.cfg s.smp0) ∧ (u.ftl = s.ftl ∨ u.ftl = s.ft) := by
  rcases microStep_cases s u h with ⟨-, rfl⟩ | ⟨-, rfl⟩ | ⟨-, rfl⟩ | ⟨-, rfl⟩ | ⟨-, rfl⟩ | ⟨-, rfl⟩ | ⟨-, rfl⟩ | ⟨-, rfl⟩ |
    ⟨-, rfl⟩ | ⟨-, rfl⟩ | ⟨-, rfl⟩
  case inl => exact ⟨.inr rfl, .inl rfl⟩
  case inr.inl => exact ⟨.inl rfl, .inr rfl⟩
  case inr.inr.inr.inr.inr.inr.inr.inr.inl => rw [microSp3_eq]; exact ⟨.inl rfl, .inl rfl⟩
  all_goals exact ⟨.inl rfl, .inl rfl⟩

theorem exec_latches_cases {i : Instr} {s t : State} (h : exec i s = .next t) :
    (t.pv = 0 ∨ t.pv = s.pv ∨ t.pv = scale s.cfg s.smp0) ∧ (t.ftl = 0 ∨ t.ftl = s.ftl ∨ t.ftl = s.ft) := by
  cases i with
  | reset => obtain ⟨-, rfl⟩ := (reset_next_iff _ _).mp h; exact ⟨.inl rfl, .inl rfl⟩
  | mainStep =>
    obtain ⟨-, -, u, hu, rfl⟩ := (mainStep_next_iff _ _).mp h
    obtain ⟨hpv, hftl⟩ := microStep_latches_cases hu
    exact ⟨.inr hpv, .inr hftl⟩
  | _ =>
    have hpv : t.pv = s.pv := exec_reg_of_not_written h (r := .pv) (by simp [writes])
    have hftl : t.ftl = s.ftl := exec_reg_of_not_written h (r := .ftl) (by simp [writes])
    exact ⟨.inr (.inl hpv), .inr (.inl hftl)⟩

theorem exec_keeps_pv_le {i : Instr} {s t : State} (h : exec i s = .next t)
    (hs : s.pv.toNat ≤ s.cfg.mask / s.cfg.scale) : t.pv.toNat ≤ t.cfg.mask / t.cfg.scale := by
  rw [exec_cfg h]
  rcases (exec_latches_cases h).1 with hpv | hpv | hpv <;> rw [hpv]
  · exact Nat.zero_le _
  · exact hs
  · exact scale_le_of_sample s.cfg s.smp0

theorem exec_keeps_ftl_le {i : Instr} {s t : State} (h : exec i s = .next t) (hft : s.ft.toNat ≤ s.cfg.focusMax)
    (hs : s.ftl.toNat ≤ s.cfg.focusMax) : t.ftl.toNat ≤ t.cfg.focusMax := by
  rw [exec_cfg h]
  rcases (exec_latches_cases h).2 with hftl | hftl | hftl <;> rw [hftl]
  · exact Nat.zero_le _
  · exact hs
  · exact hft

/-! The bus port (R37). -/

/-- The wait, the mailbox and the status word as `PortInv` has them. -/
def MailboxInv (s : State) : Prop :=
  Busctl.bwait s.busctl = Busctl.txv s.busctl ∧
    (Busctl.mfull s.busctl = false → Busctl.mkind s.busctl = false) ∧
    (Busctl.mfull s.busctl = false ∨ Busctl.mkind s.busctl = true → s.mdata = 0#32) ∧
    s.txw.extractLsb' 16 16 = 0#16

theorem portInv_iff (s : State) : PortInv s ↔ s.cfg.legal = true ∧ s.ft.toNat ≤ s.cfg.focusMax ∧
    s.ftl.toNat ≤ s.cfg.focusMax ∧ s.pv.toNat ≤ s.cfg.mask / s.cfg.scale ∧ MailboxInv s := Iff.rfl

/-- The upper half of a packed word is 0 (R98, R101). -/
theorem packBytes_upper (hi lo : Word) : (packBytes hi lo).extractLsb' 16 16 = 0#16 := by
  apply BitVec.eq_of_getLsbD_eq
  intro k hk
  have h8 : ¬ 16 + k < 8 := by omega
  have h16 : ¬ 16 + k - 8 < 8 := by omega
  have hlow : (packBytes hi lo).getLsbD (16 + k) = (0#16 ++ hi.extractLsb' 0 8).getLsbD (16 + k - 8) :=
    BitVec.getLsbD_append.trans (if_neg h8)
  have hmid : (0#16 ++ hi.extractLsb' 0 8).getLsbD (16 + k - 8) = (0#16).getLsbD (16 + k - 8 - 8) :=
    BitVec.getLsbD_append.trans (if_neg h16)
  simp [hlow, hmid]

/-- A Status-request carries no data (R172). -/
theorem arrive_keeps_mailboxInv {s : State} (hs : MailboxInv s) {kind : Bool} {d : Word} (hd : kind = true → d = 0) :
    MailboxInv (arrive kind d s) := by
  obtain ⟨hwait, hempty, hdata, htxw⟩ := hs
  rw [arrive_eq]
  simp only [MailboxInv]
  split
  · exact ⟨hwait, hempty, hdata, htxw⟩
  · simpa [hwait, htxw] using hd

/-- Taking the message empties the mailbox; a Status-request then starts the wait and the transmission together (R174, R178). -/
theorem busHandler_keeps_mailboxInv {s : State} (hs : MailboxInv s) : MailboxInv (busHandler s) := by
  obtain ⟨hwait, -, -, htxw⟩ := hs
  rw [busHandler_eq]
  simp only [MailboxInv]
  split
  · simpa [statusWord] using packBytes_upper (scale s.cfg s.smp0) s.rt
  · simpa [hwait] using htxw

theorem powerOn_mailboxInv (cfg : Params) (draws : Nat) : MailboxInv (State.powerOn cfg draws) := by
  simp only [MailboxInv, State.powerOn]
  decide

theorem exec_keeps_mailboxInv {i : Instr} {s t : State} (h : exec i s = .next t) (hs : MailboxInv s) : MailboxInv t := by
  cases i with
  | reset =>
    obtain ⟨-, rfl⟩ := (reset_next_iff _ _).mp h
    exact powerOn_mailboxInv s.cfg s.draws
  | busCmd d =>
    obtain ⟨-, rfl⟩ := (busCmd_next_iff _ _ _).mp h
    exact arrive_keeps_mailboxInv hs nofun
  | busStatreq =>
    obtain ⟨-, rfl⟩ := (busStatreq_next_iff _ _).mp h
    exact arrive_keeps_mailboxInv hs fun _ => rfl
  | txDone a e =>
    obtain ⟨-, -, rfl⟩ := (txDone_next_iff _ _ _ _).mp h
    simpa [MailboxInv] using hs.2
  | isrBus =>
    obtain ⟨-, -, rfl⟩ := (isrBus_next_iff _ _).mp h
    exact busHandler_keeps_mailboxInv hs
  | _ =>
    have hbus : t.busctl = s.busctl := exec_reg_of_not_written h (r := .busctl) (by simp [writes])
    have hdata : t.mdata = s.mdata := exec_reg_of_not_written h (r := .mdata) (by simp [writes])
    have htxw : t.txw = s.txw := exec_reg_of_not_written h (r := .txw) (by simp [writes])
    rwa [MailboxInv, hbus, hdata, htxw]

theorem exec_keeps_portInv (i : Instr) (s t : State) (hs : PortInv s) (h : exec i s = .next t) : PortInv t := by
  obtain ⟨hlegal, hft, hftl, hpv, hmail⟩ := (portInv_iff s).mp hs
  exact (portInv_iff t).mpr ⟨exec_cfg h ▸ hlegal, exec_keeps_ft_le h hft, exec_keeps_ftl_le h hft hftl,
    exec_keeps_pv_le h hpv, exec_keeps_mailboxInv h hmail⟩

/-- Settles O56. -/
theorem everyStepKeepsPortInvariant : Obligations.EveryStepKeepsPortInvariant :=
  fun _ _ hs h => step_keeps (fun _ _ hs => hs) exec_keeps_portInv hs h

end Sys2Proof.Machine
end

section
/-! The family 10_state.md: who writes what (O14, O15, O21). -/

namespace Sys2Proof.Machine

/-! The writers of single registers, read off the frame. -/

theorem mem_writes_ft_iff (i : Instr) : .ft ∈ writes i ↔ i = .isrBus ∨ i = .isrSmp ∨ i = .reset := by
  cases i <;> simp [writes]

theorem mem_writes_rt_iff (i : Instr) : .rt ∈ writes i ↔ i = .isrBus ∨ i = .reset := by
  cases i <;> simp [writes]

/-- The settle timer writes its own two bits only (R210). -/
theorem settleTick_keeps_rotary (s : State) : Seqctl.cp (settleTick s).seqctl = Seqctl.cp s.seqctl ∧
    Seqctl.tip (settleTick s).seqctl = Seqctl.tip s.seqctl := by
  simp only [settleTick]
  split <;> simp

/-- The operations that can change the rotary state: the settle handler keeps CP, and the settle timer keeps both (R31, R81). -/
theorem exec_rotary_cases {i : Instr} {s t : State} (h : exec i s = .next t) :
    (Seqctl.cp t.seqctl = Seqctl.cp s.seqctl ∨ i = .seqStart ∨ i = .mainStep ∨ i = .reset) ∧
    (Seqctl.tip t.seqctl = Seqctl.tip s.seqctl ∨ i = .seqStart ∨ i = .mainStep ∨ i = .isrSeq ∨ i = .reset) := by
  cases i with
  | reset => simp
  | seqStart => simp
  | mainStep => simp
  | isrSeq => obtain ⟨-, -, rfl⟩ := (isrSeq_next_iff _ _).mp h; simp [settleHandler]
  | settleTick => obtain ⟨-, -, rfl⟩ := (settleTick_next_iff _ _).mp h; simp [settleTick_keeps_rotary]
  | _ =>
    have hseq : t.seqctl = s.seqctl := exec_reg_of_not_written h (r := .seqctl) (by simp [writes])
    simp [hseq]

/-- Settles O14: the targets by the frame, the rotary state by `exec_rotary_cases`. -/
theorem sharedFieldsChangeOnlyByTheirWriters : Obligations.SharedFieldsChangeOnlyByTheirWriters := by
  intro i s t h
  obtain ⟨hcp, htip⟩ := exec_rotary_cases h
  exact ⟨fun hne => (mem_writes_ft_iff i).mp (mem_writes_of_reg_ne h .ft hne),
    fun hne => (mem_writes_rt_iff i).mp (mem_writes_of_reg_ne h .rt hne), hcp.resolve_left, htip.resolve_left⟩

/-- FIRST is set by ISR_SMP alone and cleared by RESET alone (R153). -/
theorem exec_first_cases {i : Instr} {s t : State} (h : exec i s = .next t) :
    i = .reset ∧ Smpctl.first t.smpctl = false ∨ Smpctl.first t.smpctl = Smpctl.first s.smpctl ∨
      i = .isrSmp ∧ Smpctl.first t.smpctl = true := by
  cases i with
  | reset =>
    obtain ⟨-, rfl⟩ := (reset_next_iff _ _).mp h
    exact .inl ⟨rfl, show Smpctl.first 0 = false by decide⟩
  | samplerInit =>
    obtain ⟨-, rfl⟩ := (samplerInit_next_iff _ _).mp h
    rw [samplerInit_eq]
    dsimp only
    split <;> simp
  | trgTick =>
    obtain ⟨-, -, rfl⟩ := (trgTick_next_iff _ _).mp h
    rw [trgTick_eq]
    dsimp only
    split <;> simp
  | conv v e o =>
    obtain ⟨-, -, rfl⟩ := (conv_next_iff _ _ _ _ _).mp h
    rw [convert_eq]
    dsimp only
    split <;> simp
  | isrSmp =>
    obtain ⟨-, -, rfl⟩ := (isrSmp_next_iff _ _).mp h
    rw [samplerHandler_eq]
    dsimp only
    split <;> simp
  | _ =>
    have hsmp : t.smpctl = s.smpctl := exec_reg_of_not_written h (r := .smpctl) (by simp [writes])
    exact .inr (.inl (by rw [hsmp]))

/-- Settles O15: the flags of STAT one by one, then the marker. -/
theorem stickyFlagsChangeOnlyAsNamed : Obligations.StickyFlagsChangeOnlyAsNamed := by
  intro i s t h
  refine ⟨?ovrSet, ?ovrCleared, ?err, ?nstSet, ?nstCleared, ?seqSet, ?seqCleared, ?firstCleared, ?firstSet⟩
  case ovrSet | ovrCleared =>
    rintro ⟨hs, ht⟩
    rcases exec_smpOvr_cases h with heq | ⟨hi, hset⟩ | ⟨hi, hclear⟩ <;> simp_all
  case err =>
    intro hne
    exact (exec_smpErr_cases h).resolve_left hne
  case nstSet | nstCleared =>
    rintro ⟨hs, ht⟩
    rcases exec_smpNst_cases h with heq | ⟨hi, hclear⟩ | ⟨hi, hset⟩ <;> simp_all
  case seqSet | seqCleared =>
    rintro ⟨hs, ht⟩
    rcases exec_seqNst_cases h with heq | ⟨hi, hclear⟩ | ⟨hi, hset⟩ <;> simp_all
  case firstCleared | firstSet =>
    rintro ⟨hs, ht⟩
    rcases exec_first_cases h with ⟨hi, hclear⟩ | heq | ⟨hi, hset⟩ <;> simp_all

/-- A sample register changes when its view as a word does (R22). -/
theorem sampleWord_zext_ne {x y : SampleWord} (h : x ≠ y) : x.setWidth 32 ≠ y.setWidth 32 := by
  intro heq
  exact h (by simpa using congrArg (BitVec.setWidth 16) heq)

/-- Settles O21: the frame leaves RESET and CONV, and a CONV that commits nothing keeps all three words. -/
theorem visibleSampleChangesOnlyByCommitOrReset : Obligations.VisibleSampleChangesOnlyByCommitOrReset := by
  intro i s t h hne
  have hwrites : .smp0 ∈ writes i ∨ .smp1 ∈ writes i ∨ .smp2 ∈ writes i :=
    hne.imp (fun h0 => mem_writes_of_reg_ne h .smp0 (sampleWord_zext_ne h0))
      (Or.imp (fun h1 => mem_writes_of_reg_ne h .smp1 (sampleWord_zext_ne h1))
        (fun h2 => mem_writes_of_reg_ne h .smp2 (sampleWord_zext_ne h2)))
  cases i with
  | reset => exact .inl rfl
  | conv v e o =>
    obtain ⟨-, -, rfl⟩ := (conv_next_iff _ _ _ _ _).mp h
    rw [convert_eq] at hne ⊢
    dsimp only at hne ⊢
    by_cases hcommit : 2 ≤ (Smpctl.wix s.smpctl).toNat ∧ (Smpctl.aerr s.smpctl || e) = false
    · obtain ⟨haerr, rfl⟩ := Bool.or_eq_false_iff.mp hcommit.2
      exact .inr ⟨v, o, rfl, haerr, hcommit.1, if_pos hcommit, if_pos hcommit, if_pos hcommit⟩
    · simp only [if_neg hcommit, ne_eq, not_true_eq_false, or_self] at hne
  | _ => simp [writes] at hwrites

end Sys2Proof.Machine
end

section
/-! The family 10_state.md: the states right after power-on (O8, O9, O52) and those reachable from them (O58). -/

namespace Sys2Proof.Machine

/-- Settles O8. -/
theorem resetInstallsTheResetValues : Obligations.ResetInstallsTheResetValues := by
  refine ⟨by decide, fun s hlegal => ⟨_, (reset_next_iff s _).mpr ⟨hlegal, rfl⟩, rfl, rfl, rfl, rfl, rfl, rfl, rfl, rfl, rfl,
    rfl, rfl, rfl, rfl, rfl, rfl, fun l => ?_⟩⟩
  cases l <;> simp only [pending, resetState_fields] <;> decide

/-- Settles O9. -/
theorem firstStateHoldsTheResetValues : Obligations.FirstStateHoldsTheResetValues :=
  ⟨rfl, rfl, rfl, rfl, rfl, rfl, rfl, rfl, rfl, rfl, rfl, rfl, rfl, rfl⟩

theorem powerOn_samplerInv {cfg : Params} (hlegal : cfg.legal = true) (draws : Nat) :
    SamplerInv (State.powerOn cfg draws) := by
  obtain ⟨-, -, hperiod, -⟩ := (legal_iff cfg).mp hlegal
  exact (samplerInv_iff _).mpr ⟨hlegal, Nat.zero_le _, hperiod, smpctlInv_reset⟩

theorem powerOn_controlInv {cfg : Params} (hlegal : cfg.legal = true) (draws : Nat) :
    ControlInv (State.powerOn cfg draws) := by
  obtain ⟨-, -, -, hticks, -⟩ := (legal_iff cfg).mp hlegal
  exact (controlInv_iff _).mpr
    ⟨hlegal, Nat.zero_le _, powerOn_outputsLegal cfg draws, powerOn_codesLegal cfg draws, powerOn_timerInv hticks draws,
      powerOn_unstartedInv cfg draws, powerOn_setPhaseInv cfg draws⟩

theorem powerOn_portInv {cfg : Params} (hlegal : cfg.legal = true) (draws : Nat) : PortInv (State.powerOn cfg draws) :=
  (portInv_iff _).mpr ⟨hlegal, Nat.zero_le _, Nat.zero_le _, Nat.zero_le _, powerOn_mailboxInv cfg draws⟩

theorem powerOn_focusHeld (cfg : Params) (draws : Nat) : FocusHeldUntilFirstSample (State.powerOn cfg draws) := by
  simp only [FocusHeldUntilFirstSample, State.powerOn]
  decide

/-- Settles O52. -/
theorem powerOnStateIsSafe : Obligations.PowerOnStateIsSafe :=
  fun cfg draws hlegal => ⟨powerOn_reservedClear cfg draws, powerOn_samplerInv hlegal draws,
    powerOn_controlInv hlegal draws, powerOn_portInv hlegal draws, powerOn_focusHeld cfg draws⟩

/-- What holds after power-on and is kept by every operation holds of every reachable state (R41). -/
theorem Reachable.invariant {P : State → Prop}
    (hpowerOn : ∀ cfg draws, cfg.legal = true → P (State.powerOn cfg draws))
    (hexec : ∀ i s t, P s → exec i s = .next t → P t) {s : State} (hs : Reachable s) : P s := by
  induction hs with
  | powerOn cfg draws hlegal => exact hpowerOn cfg draws hlegal
  | step s t i _ _ h ih => exact hexec i s t ih h

theorem Reachable.reservedClear {s : State} (hs : Reachable s) : ReservedClear s :=
  hs.invariant (fun cfg draws _ => powerOn_reservedClear cfg draws) exec_keeps_reservedClear

theorem Reachable.samplerInv {s : State} (hs : Reachable s) : SamplerInv s :=
  hs.invariant (fun _ draws hlegal => powerOn_samplerInv hlegal draws) exec_keeps_samplerInv

theorem Reachable.controlInv {s : State} (hs : Reachable s) : ControlInv s :=
  hs.invariant (fun _ draws hlegal => powerOn_controlInv hlegal draws) exec_keeps_controlInv

theorem Reachable.portInv {s : State} (hs : Reachable s) : PortInv s :=
  hs.invariant (fun _ draws hlegal => powerOn_portInv hlegal draws) exec_keeps_portInv

/-- A two-bit code other than 3 is at most 2 (R29, R31, R33, R34). -/
theorem code_le_two {x : BitVec 2} (h : x ≠ 3#2) : x.toNat ≤ 2 := by
  have key : ∀ x : BitVec 2, x ≠ 3#2 → x.toNat ≤ 2 := by decide
  exact key x h

/-- A word that reads back as itself has only the live bits of STAT (R25, R26). -/
theorem stat_dead_bit {w : Word} (h : Stat.read w = w) {k : Nat} (hk : ¬ (k = 3 ∨ k = 4 ∨ k = 5 ∨ k = 8)) :
    w.getLsbD k = false := by
  rw [← h, getLsbD_statRead]
  simp [hk]

/-- Settles O58. -/
theorem reachableStatesHaveLegalValues : Obligations.ReachableStatesHaveLegalValues := by
  intro s hs
  obtain ⟨hstat, -⟩ := hs.reservedClear
  obtain ⟨-, hft, htrg, hsst, hwix, hfirst, -⟩ := (samplerInv_iff s).mp hs.samplerInv
  obtain ⟨-, hrt, ⟨hfoc, haxa, haxb⟩, ⟨hcp, htgt, hmpc⟩, ⟨hcnt, -⟩, hunstarted, -⟩ := (controlInv_iff s).mp hs.controlInv
  obtain ⟨-, -, -, -, hwait, -⟩ := (portInv_iff s).mp hs.portInv
  exact ⟨hft, code_le_two (targetCode_ne_three hrt), code_le_two hcp, code_le_two htgt, code_le_two hfoc, code_le_two haxa,
    code_le_two haxb, code_le_two hsst, code_le_two hwix, hmpc, htrg, hcnt,
    fun k h3 h4 h5 h8 => stat_dead_bit hstat (by simp [h3, h4, h5, h8]), fun hb => hwait ▸ hb,
    fun hf => by simpa [hf] using hfirst, fun hf => by simpa [hf] using hfirst, fun hst => (hunstarted hst).1⟩

end Sys2Proof.Machine
end

section
/-! The family 20_memory.md: what a query answers when it is repeated (R78; O13). -/

namespace Sys2Proof.Machine

/-! The pure queries: their answer is a function of the registers, and their response is all they write. -/

/-- The queries that R78 calls idempotent. -/
def PureQuery (i : Instr) : Prop := i = .smpStatus ∨ i = .seqStatus ∨ i = .readTargets ∨ ∃ c, i = .readSample c

/-- No query reads the response of the step before it. -/
theorem exec_withResp_of_pureQuery {i : Instr} (hi : PureQuery i) (s : State) (r : Response) :
    exec i { s with resp := r } = exec i s := by
  rcases hi with rfl | rfl | rfl | ⟨c, rfl⟩ <;> rfl

theorem exec_eq_withResp_of_pureQuery {i : Instr} (hi : PureQuery i) {s t : State} (h : exec i s = .next t) :
    t = { s with resp := t.resp } := by
  rcases hi with rfl | rfl | rfl | ⟨c, rfl⟩
  · obtain ⟨-, rfl⟩ := (smpStatus_next_iff _ _).mp h; rfl
  · obtain ⟨-, rfl⟩ := (seqStatus_next_iff _ _).mp h; rfl
  · obtain ⟨-, rfl⟩ := (readTargets_next_iff _ _).mp h; rfl
  · obtain ⟨-, _, -, rfl⟩ := (readSample_next_iff _ _ _).mp h; rfl

/-- The state a pure query answers differs from the first in its response only, which the repeated query does not read. -/
theorem exec_pureQuery_again {i : Instr} (hi : PureQuery i) {s t : State} (h : exec i s = .next t) :
    exec i t = .next t := by
  have ht : t = { s with resp := t.resp } := exec_eq_withResp_of_pureQuery hi h
  calc exec i t = exec i { s with resp := t.resp } := congrArg (exec i) ht
    _ = exec i s := exec_withResp_of_pureQuery hi s t.resp
    _ = .next t := h

/-! The aggregate query (R77, R185). -/

theorem aggregateOk_of_smpOvr {s : State} (h : Stat.smpOvr s.stat = true) (b : Bool) : aggregateOk b s = false := by
  simp [aggregateOk, h]

theorem aggregateOk_of_not_smpOvr {s : State} (h : Stat.smpOvr s.stat = false) (b : Bool) : aggregateOk b s = !b := by
  simp [aggregateOk, h]

/-- In a legal configuration AGG_QUERY is always enabled; it reports the Overrun it finds and leaves none. -/
theorem exec_aggQuery {s : State} (hl : s.cfg.legal = true) (b : Bool) : ∃ t, exec (.aggQuery b) s = .next t ∧
    t.resp = Response.ofOk (aggregateOk b s) ∧ Stat.smpOvr t.stat = false :=
  ⟨_, (aggQuery_next_iff b s _).mpr ⟨hl, rfl⟩, rfl, (Stat.setSmpOvr_flags false s.stat).1⟩

/-- Settles O13: a pure query does not read what it writes; the second aggregate query finds the Overrun cleared. -/
theorem repeatedQueriesAnswerAsTheRuleSays : Obligations.RepeatedQueriesAnswerAsTheRuleSays := by
  refine ⟨fun i s t hi h => ⟨exec_pureQuery_again hi h, exec_eq_withResp_of_pureQuery hi h⟩, fun b b' s hl hovr => ?_⟩
  obtain ⟨t, ht, htresp, htovr⟩ := exec_aggQuery hl b
  obtain ⟨u, hu, huresp, -⟩ := exec_aggQuery (exec_cfg ht ▸ hl) b'
  rw [aggregateOk_of_smpOvr hovr] at htresp
  rw [aggregateOk_of_not_smpOvr htovr] at huresp
  refine ⟨t, u, ht, htresp, htovr, hu, ?_⟩
  cases b' <;> exact huresp

end Sys2Proof.Machine
end

section
/-! The family 30_encoding.md: decoding and encoding of event words (O1 to O5), and the bits of a Command that name no target
(O27). -/

namespace Sys2Proof.Machine

/-! What the encoder puts in the operand: the named fields in their places, and 0 in every reserved bit (R93). -/

/-- Two words with no bit outside the lowest `n` are the same when those `n` bits are. -/
theorem eq_of_low_bits {x y : Word} (n : Nat) (hx : x &&& ~~~(BitVec.ofNat 32 (2 ^ n - 1)) = 0#32)
    (hy : y &&& ~~~(BitVec.ofNat 32 (2 ^ n - 1)) = 0#32) (h : ∀ j < n, x.getLsbD j = y.getLsbD j) : x = y := by
  apply BitVec.eq_of_getLsbD_eq
  intro j hj
  rcases Nat.lt_or_ge j n with hlow | hhigh
  · exact h j hlow
  · rw [getLsbD_of_and_not_mask x n hx j hhigh hj, getLsbD_of_and_not_mask y n hy j hhigh hj]

theorem opd_txDone_reserved (a e : Bool) : (Instr.txDone a e).opd &&& ~~~0x3#32 = 0#32 := by
  cases a <;> cases e <;> rfl

theorem opd_aggQuery_reserved (b : Bool) : (Instr.aggQuery b).opd &&& ~~~0x1#32 = 0#32 := by
  cases b <;> rfl

theorem opd_readSample_reserved (ch : BitVec 2) : (Instr.readSample ch).opd &&& ~~~0x3#32 = 0#32 := by
  revert ch; decide

theorem opd_conv_reserved (v : SampleWord) (e o : Bool) : (Instr.conv v e o).opd &&& ~~~0x3FFFF#32 = 0#32 := by
  apply BitVec.eq_of_getLsbD_eq
  intro j hj
  have hmask : (0x3FFFF#32).getLsbD j = decide (j < 18) := by
    rw [show 0x3FFFF#32 = BitVec.ofNat 32 (2 ^ 18 - 1) from rfl, BitVec.getLsbD_ofNat, Nat.testBit_two_pow_sub_one]
    simp [hj]
  rw [BitVec.getLsbD_and, BitVec.getLsbD_not, hmask, getLsbD_opd_conv v e o j hj]
  by_cases hfield : j < 18
  · simp [hfield]
  · rw [if_neg (by omega), if_neg (by omega), if_neg (by omega)]
    simp

theorem opd_txDone_fields (a e : Bool) :
    (Instr.txDone a e).opd.getLsbD 0 = a ∧ (Instr.txDone a e).opd.getLsbD 1 = e := by
  cases a <;> cases e <;> exact ⟨rfl, rfl⟩

theorem opd_aggQuery_field (b : Bool) : (Instr.aggQuery b).opd.getLsbD 0 = b := by
  cases b <;> rfl

theorem opd_readSample_field (ch : BitVec 2) : (Instr.readSample ch).opd.extractLsb' 0 2 = ch := by
  revert ch; decide

theorem opd_conv_fields (v : SampleWord) (e o : Bool) :
    (Instr.conv v e o).opd.extractLsb' 0 16 = v ∧ (Instr.conv v e o).opd.getLsbD 16 = e ∧
      (Instr.conv v e o).opd.getLsbD 17 = o := by
  refine ⟨?_, getLsbD_opd_conv v e o 16 (by omega), getLsbD_opd_conv v e o 17 (by omega)⟩
  apply BitVec.eq_of_getLsbD_eq
  intro j hj
  rw [BitVec.getLsbD_extractLsb', Nat.zero_add, getLsbD_opd_conv v e o j (by omega)]
  simp [hj]

/-! An operand with every reserved bit 0 is the operand of the operation its fields name. -/

theorem opd_eq_zero {opd : Word} (h : opd &&& ~~~0#32 = 0#32) : opd = 0#32 :=
  eq_of_low_bits 0 h rfl (fun j hj => absurd hj (Nat.not_lt_zero j))

theorem opd_txDone_getLsbD {opd : Word} (h : opd &&& ~~~0x3#32 = 0#32) :
    (Instr.txDone (opd.getLsbD 0) (opd.getLsbD 1)).opd = opd := by
  obtain ⟨harb, herr⟩ := opd_txDone_fields (opd.getLsbD 0) (opd.getLsbD 1)
  refine eq_of_low_bits 2 (opd_txDone_reserved _ _) h fun j hj => ?_
  interval_cases j
  · exact harb
  · exact herr

theorem opd_aggQuery_getLsbD {opd : Word} (h : opd &&& ~~~0x1#32 = 0#32) :
    (Instr.aggQuery (opd.getLsbD 0)).opd = opd := by
  refine eq_of_low_bits 1 (opd_aggQuery_reserved _) h fun j hj => ?_
  interval_cases j
  exact opd_aggQuery_field _

theorem opd_readSample_extractLsb' {opd : Word} (h : opd &&& ~~~0x3#32 = 0#32) :
    (Instr.readSample (opd.extractLsb' 0 2)).opd = opd := by
  refine eq_of_low_bits 2 (opd_readSample_reserved _) h fun j hj => ?_
  have hfield := congrArg (fun c => BitVec.getLsbD c j) (opd_readSample_field (opd.extractLsb' 0 2))
  simpa [BitVec.getLsbD_extractLsb', hj] using hfield

theorem opd_conv_extractLsb' {opd : Word} (h : opd &&& ~~~0x3FFFF#32 = 0#32) :
    (Instr.conv (opd.extractLsb' 0 16) (opd.getLsbD 16) (opd.getLsbD 17)).opd = opd := by
  refine eq_of_low_bits 18 (opd_conv_reserved _ _ _) h fun j hj => ?_
  rw [getLsbD_opd_conv _ _ _ j (by omega), BitVec.getLsbD_extractLsb', Nat.zero_add]
  rcases (by omega : j < 16 ∨ j = 16 ∨ j = 17) with hlow | rfl | rfl
  · simp [hlow]
  · simp
  · simp

/-! The decoder inverts the encoder (R92 to R94). -/

theorem withReservedBits_of_clear {opd fields : Word} (h : opd &&& ~~~fields = 0#32) (i : Instr) :
    withReservedBits opd fields i = .ok i :=
  (withReservedBits_ok_iff opd fields i i).mpr ⟨h, rfl⟩

theorem decodeReadSample_ok_iff (opd : Word) (i : Instr) : decodeReadSample opd = .ok i ↔
    opd &&& ~~~0x3#32 = 0#32 ∧ opd.extractLsb' 0 2 ≠ 3#2 ∧ i = .readSample (opd.extractLsb' 0 2) := by
  unfold decodeReadSample
  split
  · next hclear =>
    split
    · next hch => simp [hch]
    · next hch => simpa only [hclear, hch, ne_eq, not_false_eq_true, true_and, Except.ok.injEq] using eq_comm
  · next hset => simp only [hset, false_and, reduceCtorEq]

theorem decodeFields_op_opd {i : Instr} (hwf : i.wellFormed = true) : decodeFields i.op.toNat i.opd = .ok i := by
  cases i with
  | txDone a e =>
    obtain ⟨harb, herr⟩ := opd_txDone_fields a e
    exact (withReservedBits_of_clear (opd_txDone_reserved a e) _).trans (by rw [harb, herr])
  | aggQuery b =>
    exact (withReservedBits_of_clear (opd_aggQuery_reserved b) _).trans (by rw [opd_aggQuery_field])
  | readSample ch =>
    have hch : ch ≠ 3#2 := by simpa [Instr.wellFormed] using hwf
    refine (decodeReadSample_ok_iff _ _).mpr ⟨opd_readSample_reserved ch, ?_⟩
    rw [opd_readSample_field]
    exact ⟨hch, rfl⟩
  | conv v e o =>
    obtain ⟨hv, herr, hovr⟩ := opd_conv_fields v e o
    exact (withReservedBits_of_clear (opd_conv_reserved v e o) _).trans (by rw [hv, herr, hovr])
  | _ => rfl

/-- Settles O3: the word of an operation carries its `OP` and its `OPD`, which decode to it. -/
theorem decodingAnEncodedOperationGivesItBack : Obligations.DecodingAnEncodedOperationGivesItBack := by
  intro i hwf
  rw [encode, decode_eventWord, decodeFields_op_opd hwf]

/-- What passes step 2 of R94 carries the operand it was read from, where `j` carries it when the reserved bits are 0. -/
theorem fields_of_withReservedBits_ok {opd fields : Word} {j i : Instr} (hopd : opd &&& ~~~fields = 0#32 → j.opd = opd)
    (hwf : j.wellFormed = true) (h : withReservedBits opd fields j = .ok i) :
    i.op.toNat = j.op.toNat ∧ i.opd = opd ∧ i.wellFormed = true := by
  obtain ⟨hclear, rfl⟩ := (withReservedBits_ok_iff _ _ _ _).mp h
  exact ⟨rfl, hopd hclear, hwf⟩

theorem fields_of_decodeReadSample_ok {opd : Word} {i : Instr} (h : decodeReadSample opd = .ok i) :
    i.op.toNat = 0x10 ∧ i.opd = opd ∧ i.wellFormed = true := by
  obtain ⟨hclear, hch, rfl⟩ := (decodeReadSample_ok_iff _ _).mp h
  exact ⟨rfl, opd_readSample_extractLsb' hclear, by simpa [Instr.wellFormed] using hch⟩

/-- What decodes is well formed, and its `OP` and `OPD` are those it was decoded from (R94). -/
theorem fields_of_decodeFields_ok {op : Nat} {opd : Word} {i : Instr} (h : decodeFields op opd = .ok i) :
    i.op.toNat = op ∧ i.opd = opd ∧ i.wellFormed = true := by
  revert h
  fun_cases decodeFields op opd
  -- the operations with operand fields, BUS_CMD, TX_DONE, AGG_QUERY, READ_SAMPLE and CONV, then an `OP` of no operation
  case case5 => rintro ⟨⟩; exact ⟨rfl, rfl, rfl⟩
  case case7 => exact fields_of_withReservedBits_ok opd_txDone_getLsbD rfl
  case case8 => exact fields_of_withReservedBits_ok opd_aggQuery_getLsbD rfl
  case case12 => exact fields_of_decodeReadSample_ok
  case case14 => exact fields_of_withReservedBits_ok opd_conv_extractLsb' rfl
  case case20 => rintro ⟨⟩
  all_goals exact fields_of_withReservedBits_ok (fun hclear => (opd_eq_zero hclear).symm) rfl

/-- Settles O4: a word is its `OP` and its `OPD`, and these are those of the operation it decodes to. -/
theorem eachOperationHasOneWord : Obligations.EachOperationHasOneWord := by
  intro w i h
  obtain ⟨hop, hopd, hwf⟩ := fields_of_decodeFields_ok h
  refine ⟨?_, hwf⟩
  rw [encode, BitVec.eq_of_toNat_eq hop, hopd, eventWord_opOf_opdOf]

/-! Decoding is total, and R94 refuses in its own order. -/

theorem decodeFields_of_not_mem_operationMap {op : Nat} (hop : ∀ row ∈ operationMap, op ≠ row.1.toNat) (opd : Word) :
    decodeFields op opd = .error .undefinedOp := by
  fun_cases decodeFields op opd
  case case20 => rfl
  all_goals simp [operationMap] at hop

/-- What R94 answers when `OP` is in the operation map with the operand bits `fields`: step 2, then step 3, then the
operation. -/
def refusalOr (op : OpCode) (fields opd : Word) (i : Instr) : Except DecodeError Instr :=
  if opd &&& ~~~fields = 0#32 then
    if op = 0x10#8 ∧ opd = 3#32 then .error .reservedChannel else .ok i
  else .error .reservedOperandBit

theorem withReservedBits_eq_refusalOr {op : OpCode} (hop : op ≠ 0x10#8) (fields opd : Word) (i : Instr) :
    withReservedBits opd fields i = refusalOr op fields opd i := by
  simp only [withReservedBits, refusalOr, hop, false_and, if_false]

/-- The channel field is 3 exactly when the whole operand is, the bits above the field being 0. -/
theorem extractLsb'_eq_three_iff {opd : Word} (h : opd &&& ~~~0x3#32 = 0#32) :
    opd.extractLsb' 0 2 = 3#2 ↔ opd = 3#32 := by
  constructor
  · intro hch
    rw [← opd_readSample_extractLsb' h, hch]
    rfl
  · rintro rfl
    rfl

theorem decodeReadSample_eq_refusalOr (opd : Word) :
    decodeReadSample opd = refusalOr 0x10#8 0x3#32 opd (.readSample (opd.extractLsb' 0 2)) := by
  unfold decodeReadSample refusalOr
  split
  · next hclear => simp only [extractLsb'_eq_three_iff hclear, true_and]
  · rfl

/-- One decoding rule for every row of the operation map: only READ_SAMPLE comes to step 3, and BUS_CMD reserves no bit. -/
theorem decodeFields_of_mem_operationMap {row : OpCode × Word} (hrow : row ∈ operationMap) (opd : Word) :
    ∃ i, decodeFields row.1.toNat opd = refusalOr row.1 row.2 opd i := by
  fin_cases hrow
  -- the rows of READ_SAMPLE and BUS_CMD
  on_goal 12 => exact ⟨_, decodeReadSample_eq_refusalOr opd⟩
  on_goal 5 => exact ⟨.busCmd opd, by simp [decodeFields, refusalOr]⟩
  all_goals exact ⟨_, Eq.trans rfl (withReservedBits_eq_refusalOr (by decide) _ opd _)⟩

/-- Settles O2: no row of the map has the word's `OP`, or one has and `refusalOr` says which step of R94 refuses. -/
theorem everyWordNamesOneOperationOrIsRefused : Obligations.EveryWordNamesOneOperationOrIsRefused := by
  intro w
  refine ⟨fun hop => ?_, fun row hrow hop => ?_⟩
  · exact decodeFields_of_not_mem_operationMap (fun row hrow heq => hop row hrow (BitVec.eq_of_toNat_eq heq)) _
  obtain ⟨i, hi⟩ := decodeFields_of_mem_operationMap hrow (opdOf w)
  have hdecode : decode w = refusalOr row.1 row.2 (opdOf w) i := by rw [decode, hop, hi]
  refine ⟨fun hset => ?_, fun hclear => ⟨fun hch => ?_, fun hch => ⟨i, ?_⟩⟩⟩
  · rw [hdecode, refusalOr, if_neg hset]
  · rw [hdecode, refusalOr, if_pos hclear, if_pos (hop ▸ hch)]
  · have hok : decode w = .ok i := by rw [hdecode, refusalOr, if_pos hclear, if_neg (hop ▸ hch)]
    obtain ⟨hiop, hiopd, -⟩ := fields_of_decodeFields_ok hok
    exact ⟨hok, BitVec.eq_of_toNat_eq hiop, hiopd⟩

/-- Settles O1, word by word. -/
theorem specWordsDecodeAsTabulated : Obligations.SpecWordsDecodeAsTabulated := by
  unfold Obligations.SpecWordsDecodeAsTabulated
  decide

/-! The next event word of the trace (R90). -/

/-- Settles O5: the fetched word is the first of the trace. -/
theorem stepRunsTheDecodedOperation : Obligations.StepRunsTheDecodedOperation := by
  intro s w rest hevents
  have hfetch : fetch s = some (w, { s with events := rest }) := (fetch_eq_some_iff _ _ _).mpr ⟨rest, hevents, rfl⟩
  refine ⟨fun i hi => ?_, fun e he => ?_⟩
  · simp only [step, hfetch, hi]
  · simp only [step, hfetch, he]

/-! The two fields of a Command's data word lie in its bits 15:0 (R97). -/

theorem extractLsb'_of_low_half {d d' : Word} (h : d.extractLsb' 0 16 = d'.extractLsb' 0 16) {lo : Nat} (hlo : lo ≤ 8) :
    d.extractLsb' lo 8 = d'.extractLsb' lo 8 := by
  apply BitVec.eq_of_getLsbD_eq
  intro j hj
  have hbit := congrArg (fun x => BitVec.getLsbD x (lo + j)) h
  have hlow : lo + j < 16 := by omega
  simpa [BitVec.getLsbD_extractLsb', hlow, hj] using hbit

theorem rotField_eq_of_low_half {d d' : Word} (h : d.extractLsb' 0 16 = d'.extractLsb' 0 16) :
    rotField d = rotField d' := by
  rw [rotField, rotField, extractLsb'_of_low_half h (by decide)]

theorem focField_eq_of_low_half {d d' : Word} (h : d.extractLsb' 0 16 = d'.extractLsb' 0 16) :
    focField d = focField d' := by
  rw [focField, focField, extractLsb'_of_low_half h (by decide)]

theorem decodeCommand_eq_of_low_half {d d' : Word} (h : d.extractLsb' 0 16 = d'.extractLsb' 0 16) (s : State) :
    decodeCommand d s = decodeCommand d' s := by
  rw [decodeCommand, decodeCommand, rotField_eq_of_low_half h, focField_eq_of_low_half h]

/-- Taking a Command empties the mailbox, so the handler's state depends on the data word by `decodeCommand` alone. -/
theorem busHandler_withMdata_of_command {s : State} (hkind : Busctl.mkind s.busctl = false) (d : Word) :
    busHandler { s with mdata := d } = decodeCommand d (takeHandler .bus s) := by
  simp only [busHandler, hkind]
  rfl

/-- Settles O27: the guard reads BUSCTL only, and the handler reads the data word's two fields. -/
theorem upperCommandBitsHaveNoEffect : Obligations.UpperCommandBitsHaveNoEffect := by
  intro s d d' hkind hlow
  have hhandler : busHandler { s with mdata := d } = busHandler { s with mdata := d' } := by
    rw [busHandler_withMdata_of_command hkind, busHandler_withMdata_of_command hkind, decodeCommand_eq_of_low_half hlow]
  exact congrArg (fun t => whenEnabled .isrBus (handlerEnabled .bus s) s (complete t .nothing)) hhandler

end Sys2Proof.Machine
end

section
/-! The family 40_shared_state.md: the host reads of the targets and of the visible sample (R123, R124; O11, O12). -/

namespace Sys2Proof.Machine

/-! The bytes of a packed word (R101), of which `packBytes_upper` gives the upper half. -/

theorem packBytes_low (hi lo : Word) : (packBytes hi lo).extractLsb' 0 8 = lo.extractLsb' 0 8 :=
  BitVec.extractLsb'_append_eq_right

theorem packBytes_high (hi lo : Word) : (packBytes hi lo).extractLsb' 8 8 = hi.extractLsb' 0 8 :=
  calc (packBytes hi lo).extractLsb' 8 8 = (0#16 ++ hi.extractLsb' 0 8).extractLsb' (8 - 8) 8 :=
        BitVec.extractLsb'_append_eq_of_le (le_refl 8)
    _ = hi.extractLsb' 0 8 := BitVec.extractLsb'_append_eq_right

/-- Settles O11: the answer is the two targets packed in one word. -/
theorem readTargetsRespondsBothTargets : Obligations.ReadTargetsRespondsBothTargets := by
  refine ⟨by decide, fun s hl => ⟨packBytes s.ft s.rt, ?_, packBytes_low _ _, packBytes_high _ _, packBytes_upper _ _⟩⟩
  exact (readTargets_next_iff s _).mpr ⟨hl, rfl⟩

/-- READ_SAMPLE in a legal configuration, for a channel that has a visible word. -/
theorem exec_readSample {s : State} (hl : s.cfg.legal = true) {ch : BitVec 2} {v : SampleWord}
    (hv : sampleOf ch s = some v) : exec (.readSample ch) s = .next { s with resp := .word (v.setWidth 32) } :=
  (readSample_next_iff ch s _).mpr ⟨hl, v, hv, rfl⟩

/-- READ_SAMPLE in a legal configuration, for the channel that has none. -/
theorem exec_readSample_of_no_sample {s : State} (hl : s.cfg.legal = true) {ch : BitVec 2} (hv : sampleOf ch s = none) :
    exec (.readSample ch) s = .refused .reservedChannel := by
  rw [exec, execReadSample, whenEnabled_of_enabled _ _ _ _ hl rfl, hv]

/-- Settles O12: channels 0, 1 and 2 have a visible word, and channel 3 has none. -/
theorem readSampleRespondsTheRawWord : Obligations.ReadSampleRespondsTheRawWord := by
  refine ⟨by decide, by decide, by decide, by decide, fun s hl => ?_⟩
  exact ⟨exec_readSample hl rfl, exec_readSample hl rfl, exec_readSample hl rfl, exec_readSample_of_no_sample hl rfl⟩

end Sys2Proof.Machine
end

section
/-! The frame of an operation as `KeepsAllBut` (R22, R70), and runs of one operation repeated. -/

namespace Sys2Proof.Machine

/-- Only RESET and the micro-step SP3 take free values (logs 3 and 7). -/
theorem exec_draws {i : Instr} {s t : State} (h : exec i s = .next t) (hreset : i ≠ .reset) (hmain : i ≠ .mainStep) :
    t.draws = s.draws := by
  obtain ⟨-, hcases⟩ := exec_next_cases h
  rcases hcases with ⟨rfl, -⟩ | ⟨-, rfl⟩ | ⟨-, rfl⟩ | ⟨-, rfl⟩ | ⟨_, -, rfl⟩ | ⟨-, rfl⟩ | ⟨_, _, -, -, rfl⟩ | ⟨_, -, rfl⟩ |
    ⟨_, rfl, -⟩ | ⟨-, -, rfl⟩ | ⟨_, _, _, -, -, rfl⟩ | ⟨-, -, rfl⟩ | ⟨-, -, -, rfl⟩ | ⟨-, -, -, rfl⟩ | ⟨-, -, -, rfl⟩ |
    ⟨rfl, -, -, _, -, -⟩
  · exact absurd rfl hreset
  · rw [samplerInit_eq]
  · rw [seqStart_eq]
  · rw [mainStart_eq]
  · rw [arrive_eq]
  · rw [arrive_eq]
  · rfl
  · rfl
  · rfl
  · rw [trgTick_eq]
  · rw [convert_eq]
  · rfl
  · rw [samplerHandler_eq]
  · rfl
  · rw [busHandler_eq]
  · exact absurd rfl hmain

/-- The frame of an operation in the terms of the statements: what it does not write is kept, so only the registers it may
write are left to look at. -/
theorem keepsAllBut_of_exec {i : Instr} {s t : State} (h : exec i s = .next t) (hreset : i ≠ .reset) (hmain : i ≠ .mainStep)
    {rs : List Reg} (hrs : ∀ r ∈ writes i, r ∈ rs ∨ t.reg r = s.reg r) : KeepsAllBut rs s t := by
  obtain ⟨hcfg, hevents⟩ := exec_sameConfigAndTrace h
  refine ⟨fun r hr => ?_, hcfg, hevents, exec_draws h hreset hmain⟩
  by_cases hw : r ∈ writes i
  · exact (hrs r hw).resolve_left hr
  · exact exec_reg_of_not_written h hw

theorem keepsAllBut_refl (rs : List Reg) (s : State) : KeepsAllBut rs s s := ⟨fun _ _ => rfl, rfl, rfl, rfl⟩

theorem keepsAllBut_trans {rs : List Reg} {s t u : State} (h : KeepsAllBut rs s t) (h' : KeepsAllBut rs t u) :
    KeepsAllBut rs s u := by
  obtain ⟨hreg, hcfg, hevents, hdraws⟩ := h
  obtain ⟨hreg', hcfg', hevents', hdraws'⟩ := h'
  exact ⟨fun r hr => (hreg' r hr).trans (hreg r hr), hcfg'.trans hcfg, hevents'.trans hevents, hdraws'.trans hdraws⟩

/-- A run of one operation repeated: a property of the number of steps done that each step carries on holds all along. -/
theorem execAll_replicate {P : Nat → State → Prop} {i : Instr} {n : Nat} {s : State} (hzero : P 0 s)
    (hstep : ∀ k u, k < n → P k u → ∃ v, exec i u = .next v ∧ P (k + 1) v) :
    ∀ k, k ≤ n → ∃ u, execAll (List.replicate k i) s = .next u ∧ P k u
  | 0, _ => ⟨s, execAll_nil s, hzero⟩
  | k + 1, hk => by
    obtain ⟨u, hu, hPu⟩ := execAll_replicate hzero hstep k (by omega)
    obtain ⟨v, hv, hPv⟩ := hstep k u (by omega) hPu
    refine ⟨v, ?_, hPv⟩
    rw [List.replicate_succ', execAll_append_next_iff]
    exact ⟨u, hu, (execAll_cons_next_iff i [] u v).mpr ⟨v, hv, execAll_nil v⟩⟩

end Sys2Proof.Machine
end

section
/-! The family 41_sampler.md: the Position Sampler (O17 to O20, O22, O23, O35). -/

namespace Sys2Proof.Machine

/-! The scaled position (R140). -/

/-- Settles O17: masking by P_MASK is the remainder by its power of two. -/
theorem scaledPositionIsFloorOfMaskedSample : Obligations.ScaledPositionIsFloorOfMaskedSample := by
  intro p raw hl
  refine ⟨?_, scale_le_of_sample p raw, scale_le_focusMax hl raw⟩
  rw [scale_toNat, Params.mask, Nat.and_two_pow_sub_one_eq_mod]

/-! Arming (R142). -/

/-- Arming writes SST, WIX, BUSY, AERR and AOVR. -/
theorem samplerInit_keepsBits (s : State) : KeepsBits [0, 1, 2, 3, 4, 6, 7] s.smpctl (samplerInit s).smpctl := by
  rw [samplerInit_eq]
  dsimp only
  split
  · exact keepsBits_setBit _ 7 _ _ _ (by decide) (keepsBits_setBit _ 6 _ _ _ (by decide)
      (keepsBits_setBit _ 4 _ _ _ (by decide) (keepsBits_setField _ 2 _ _ _ (by decide)
        (keepsBits_setField _ 0 _ _ _ (by decide) (keepsBits_refl _ _)))))
  · exact keepsBits_refl _ _

theorem samplerInit_of_not_idle {s : State} (h : Smpctl.sst s.smpctl ≠ sstIdle) : samplerInit s = s := if_neg h

/-- Settles O18. -/
theorem samplerInitArmsOnlyFromIdle : Obligations.SamplerInitArmsOnlyFromIdle := by
  refine ⟨by decide, fun s hl => ?_⟩
  have hexec := (samplerInit_next_iff s _).mpr ⟨hl, rfl⟩
  refine ⟨_, hexec, rfl, fun hsst => ?_, fun hne => by rw [samplerInit_of_not_idle hne]⟩
  have hidle : Smpctl.sst s.smpctl = sstIdle := hsst
  have hframe := keepsAllBut_of_exec hexec nofun nofun (rs := [.smpctl, .trgcnt]) (by simp [writes])
  have hbits := samplerInit_keepsBits s
  refine ⟨?_, ?_, ?_, ?_, ?_, ?_, hbits, hframe⟩ <;> simp [samplerInit_eq, hidle, sstArmed]

/-! The sampling timer and its trigger edge (R143, R144). -/

/-- A trigger edge writes SST, BUSY and AOVR. -/
theorem triggerEdge_keepsBits (w : Word) : KeepsBits [0, 1, 4, 7] w (triggerEdge w) := by
  have hedge : KeepsBits [0, 1, 4, 7] w (if Smpctl.busy w then Smpctl.setAovr true w else Smpctl.setBusy true w) := by
    split <;> exact keepsBits_setBit _ _ _ _ _ (by decide) (keepsBits_refl _ _)
  unfold triggerEdge
  split
  · exact keepsBits_setField _ 0 _ _ _ (by decide) hedge
  · exact hedge

theorem trgTick_of_period {s : State} (h : s.trgcnt.toNat + 1 = s.cfg.samplePeriod) :
    trgTick s = { s with trgcnt := 0, smpctl := triggerEdge s.smpctl } := if_pos h

theorem trgTick_of_not_period {s : State} (h : s.trgcnt.toNat + 1 ≠ s.cfg.samplePeriod) :
    trgTick s = { s with trgcnt := s.trgcnt + 1 } := if_neg h

theorem exec_trgTick {s : State} (hl : s.cfg.legal = true) (hsst : Smpctl.sst s.smpctl ≠ sstIdle) :
    exec .trgTick s = .next { trgTick s with resp := .nothing } :=
  (trgTick_next_iff s _).mpr ⟨hl, hsst, rfl⟩

theorem exec_trgTick_of_idle {s : State} (hl : s.cfg.legal = true) (hsst : Smpctl.sst s.smpctl = sstIdle) :
    exec .trgTick s = .refused (.notEnabled .trgTick) :=
  whenEnabled_of_disabled _ _ _ _ hl (by simp [hsst])

theorem trgTick_keepsAllBut {s t : State} (h : exec .trgTick s = .next t) : KeepsAllBut [.trgcnt, .smpctl] s t :=
  keepsAllBut_of_exec h nofun nofun (by simp [writes])

/-- Settles O19. -/
theorem triggerTickCountsAndRaisesTheEdge : Obligations.TriggerTickCountsAndRaisesTheEdge := by
  refine ⟨by decide, fun s hl => ⟨exec_trgTick_of_idle hl, fun hsst => ?_⟩⟩
  have hexec := exec_trgTick hl hsst
  refine ⟨_, hexec, rfl, trgTick_keepsAllBut hexec, fun hne => ?_, fun heq => ?_⟩
  · rw [trgTick_of_not_period hne]
    exact ⟨rfl, rfl⟩
  · obtain ⟨hsst', -, hbusy, -, -, haovr, -⟩ := triggerEdge_fields s.smpctl
    rw [trgTick_of_period heq]
    exact ⟨rfl, hbusy, haovr.trans (Bool.or_comm _ _), hsst', triggerEdge_keepsBits s.smpctl⟩

/-- `k` ticks after `s`, before the edge: they have counted and done nothing else. -/
def CountedTicks (s : State) (k : Nat) (u : State) : Prop :=
  u.smpctl = s.smpctl ∧ u.trgcnt.toNat = s.trgcnt.toNat + k ∧ KeepsAllBut [.trgcnt, .smpctl] s u

/-- One more tick that does not reach the period. -/
theorem CountedTicks.tick {s u : State} {k : Nat} (hu : CountedTicks s k u) (hl : s.cfg.legal = true)
    (hsst : Smpctl.sst s.smpctl ≠ sstIdle) (hk : s.trgcnt.toNat + k + 1 < s.cfg.samplePeriod)
    (hperiod : s.cfg.samplePeriod < 2 ^ 32) : ∃ v, exec .trgTick u = .next v ∧ CountedTicks s (k + 1) v := by
  obtain ⟨hsmp, hcount, hframe⟩ := hu
  have hcfg : u.cfg = s.cfg := hframe.2.1
  have hexec : exec .trgTick u = .next { trgTick u with resp := .nothing } := exec_trgTick (hcfg ▸ hl) (hsmp ▸ hsst)
  refine ⟨_, hexec, ?_, ?_, keepsAllBut_trans hframe (trgTick_keepsAllBut hexec)⟩ <;>
    rw [trgTick_of_not_period (by rw [hcfg]; omega)]
  · exact hsmp
  · show (u.trgcnt + 1).toNat = s.trgcnt.toNat + (k + 1)
    rw [BitVec.toNat_add_of_lt (by simp; omega), hcount]
    rfl

/-- Settles O35: all ticks but the last count, and the last one raises the edge. -/
theorem triggerEdgeComesAfterTheRemainingTicks : Obligations.TriggerEdgeComesAfterTheRemainingTicks := by
  intro s hl hperiod hsst hlt
  obtain ⟨n, hn⟩ : ∃ n, s.cfg.samplePeriod = s.trgcnt.toNat + n + 1 := Nat.exists_eq_add_of_lt hlt
  have hcounted := execAll_replicate (P := CountedTicks s) (i := .trgTick) (n := n) ⟨rfl, rfl, keepsAllBut_refl _ s⟩
    (fun k u hk hu => hu.tick hl hsst (by omega) hperiod)
  refine ⟨fun k hk => ?_, ?_⟩
  · obtain ⟨u, hrun, hsmp, hcount, -⟩ := hcounted k (by omega)
    exact ⟨u, hrun, hsmp, hcount⟩
  · obtain ⟨u, hrun, hsmp, hcount, hframe⟩ := hcounted n le_rfl
    have hcfg : u.cfg = s.cfg := hframe.2.1
    have hexec : exec .trgTick u = .next { trgTick u with resp := .nothing } := exec_trgTick (hcfg ▸ hl) (hsmp ▸ hsst)
    have hexpand : Pseudo.expand .trigger s = List.replicate n .trgTick ++ [.trgTick] := by
      rw [← List.replicate_succ', Pseudo.expand]
      congr 1
      omega
    obtain ⟨hsst', -, hbusy, -, -, haovr, -⟩ := triggerEdge_fields s.smpctl
    refine ⟨_, hexpand ▸ (execAll_append_next_iff _ _ s _).mpr
      ⟨u, hrun, (execAll_cons_next_iff _ _ u _).mpr ⟨_, hexec, execAll_nil _⟩⟩, ?_⟩
    have hlast := keepsAllBut_trans hframe (trgTick_keepsAllBut hexec)
    rw [trgTick_of_period (by rw [hcfg]; omega), hsmp] at hlast ⊢
    refine ⟨rfl, hbusy, ?_, haovr.trans (Bool.or_comm _ _), hlast⟩
    show Smpctl.sst (triggerEdge s.smpctl) ≠ sstArmed
    rw [hsst']
    split
    · decide
    · assumption

/-! The conversion engine (R145 to R148). -/

/-- The word of CONV: `OP` and 14 reserved bits, then the overrun, the transfer error and the converted word (R93). -/
theorem encode_conv (v : SampleWord) (e o : Bool) :
    encode (.conv v e o) = 0x84000#22 ++ BitVec.ofBool o ++ BitVec.ofBool e ++ v := by
  have hreserved : ∀ k < 14, (0x84000#22).getLsbD k = false := by decide
  have hop : ∀ k < 8, (0x21#8).getLsbD k = (0x84000#22).getLsbD (k + 14) := by decide
  apply BitVec.eq_of_getLsbD_eq
  intro j hj
  rw [encode, eventWord, BitVec.getLsbD_append, BitVec.getLsbD_append, BitVec.getLsbD_append, BitVec.getLsbD_append]
  by_cases h32 : j < 32
  · rw [if_pos h32, getLsbD_opd_conv v e o j h32]
    rcases (by omega : j < 16 ∨ j = 16 ∨ j = 17 ∨ 18 ≤ j) with hv | rfl | rfl | h18
    · simp only [if_pos hv]
    · simp
    · simp
    · rw [if_neg (by omega), if_neg (by omega), if_neg (by omega), if_neg (by omega), if_neg (by omega), if_neg (by omega),
        hreserved _ (by omega)]
  · rw [if_neg h32, if_neg (by omega), if_neg (by omega), if_neg (by omega)]
    exact (hop (j - 32) (by omega)).trans (congrArg _ (by omega))

theorem decode_conv (v : SampleWord) (e o : Bool) :
    decode (0x84000#22 ++ BitVec.ofBool o ++ BitVec.ofBool e ++ v) = .ok (.conv v e o) :=
  encode_conv v e o ▸ decodingAnEncodedOperationGivesItBack _ rfl

theorem exec_conv {s : State} (hl : s.cfg.legal = true) (hbusy : Smpctl.busy s.smpctl = true) (v : SampleWord) (e o : Bool) :
    exec (.conv v e o) s = .next { convert v e o s with resp := .nothing } :=
  (conv_next_iff v e o s _).mpr ⟨hl, hbusy, rfl⟩

theorem exec_conv_of_not_busy {s : State} (hl : s.cfg.legal = true) (hbusy : Smpctl.busy s.smpctl = false) (v : SampleWord)
    (e o : Bool) : exec (.conv v e o) s = .refused (.notEnabled (.conv v e o)) :=
  whenEnabled_of_disabled _ _ _ _ hl hbusy

/-- A completion writes CPEND, CERR and COVR (R148). -/
theorem raiseCompletion_keepsBits {bits : List Nat} (hbits : [8, 9, 10].all bits.contains = true) (ae ao : Bool) {w w' : Word}
    (h : KeepsBits bits w w') : KeepsBits bits w (raiseCompletion ae ao w') := by
  obtain ⟨h8, h9, h10⟩ : bits.contains 8 = true ∧ bits.contains 9 = true ∧ bits.contains 10 = true := by
    simpa only [List.all_cons, List.all_nil, Bool.and_eq_true, and_true] using hbits
  exact keepsBits_setBit _ 10 _ _ _ h10 (keepsBits_setBit _ 9 _ _ _ h9 (keepsBits_setBit _ 8 _ _ _ h8 h))

section
variable (v : SampleWord) (e o : Bool) {s : State}

/-- SMPCTL after a conversion that does not end the sequence (R146). -/
theorem convert_smpctl_of_lt (h : (Smpctl.wix s.smpctl).toNat < 2) :
    Smpctl.wix (convert v e o s).smpctl = Smpctl.wix s.smpctl + 1 ∧
    Smpctl.aerr (convert v e o s).smpctl = (Smpctl.aerr s.smpctl || e) ∧
    Smpctl.aovr (convert v e o s).smpctl = (Smpctl.aovr s.smpctl || o) ∧
    KeepsBits [2, 3, 6, 7] s.smpctl (convert v e o s).smpctl := by
  simp only [convert_eq, if_pos h]
  refine ⟨by simp, by simp, by simp, ?_⟩
  exact keepsBits_setBit _ 7 _ _ _ (by decide) (keepsBits_setBit _ 6 _ _ _ (by decide)
    (keepsBits_setField _ 2 _ _ _ (by decide) (keepsBits_refl _ _)))

/-- SMPCTL after the conversion that ends the sequence and raises the completion (R146, R148). -/
theorem convert_smpctl_of_not_lt (h : ¬ (Smpctl.wix s.smpctl).toNat < 2) :
    Smpctl.wix (convert v e o s).smpctl = 0#2 ∧
    Smpctl.busy (convert v e o s).smpctl = false ∧
    Smpctl.aerr (convert v e o s).smpctl = false ∧
    Smpctl.aovr (convert v e o s).smpctl = false ∧
    Smpctl.cpend (convert v e o s).smpctl = true ∧
    Smpctl.cerr (convert v e o s).smpctl = (Smpctl.cerr s.smpctl || (Smpctl.aerr s.smpctl || e)) ∧
    Smpctl.covr (convert v e o s).smpctl =
      (Smpctl.covr s.smpctl || (Smpctl.aovr s.smpctl || o) || Smpctl.cpend s.smpctl) ∧
    KeepsBits [2, 3, 4, 6, 7, 8, 9, 10] s.smpctl (convert v e o s).smpctl := by
  simp only [convert_eq, if_neg h]
  refine ⟨by simp, by simp, by simp, by simp, by simp, by simp, by simp, ?_⟩
  exact keepsBits_setBit _ 7 _ _ _ (by decide) (keepsBits_setBit _ 6 _ _ _ (by decide)
    (raiseCompletion_keepsBits (by decide) _ _ (keepsBits_setBit _ 4 _ _ _ (by decide)
      (keepsBits_setField _ 2 _ _ _ (by decide) (keepsBits_refl _ _)))))

end

/-- Settles O20: the staging slot and the visible words by `convert_eq`, SMPCTL by the two laws above. -/
theorem conversionDepositsCommitsAndRaisesCompletion : Obligations.ConversionDepositsCommitsAndRaisesCompletion := by
  refine ⟨fun v => ⟨decode_conv v false false, decode_conv v true false, decode_conv v false true, decode_conv v true true⟩,
    fun v e o s hl => ⟨fun hbusy => exec_conv_of_not_busy hl hbusy v e o, fun hbusy => ?_⟩⟩
  have hexec := exec_conv hl hbusy v e o
  have hframe {rs : List Reg} := keepsAllBut_of_exec (rs := rs) hexec nofun nofun
  refine ⟨_, hexec, rfl, fun hwix => ?deposit, fun hwix => ?finish⟩
  case deposit =>
    obtain ⟨hnext, haerr, haovr, hbits⟩ := convert_smpctl_of_lt v e o (s := s) (by rcases hwix with h | h <;> simp [h])
    refine ⟨fun h0 => ⟨?_, ?_, hframe ?_⟩, fun h1 => ⟨?_, ?_, hframe ?_⟩, haerr, haovr, hbits⟩
    · simp [convert_eq, h0]
    · rw [hnext, h0]; rfl
    · simp [writes, State.reg, convert_eq, h0]
    · simp [convert_eq, h1]
    · rw [hnext, h1]; rfl
    · simp [writes, State.reg, convert_eq, h1]
  case finish =>
    obtain ⟨hnext, hidle, haerr, haovr, hcpend, hcerr, hcovr, hbits⟩ :=
      convert_smpctl_of_not_lt v e o (s := s) (by simp [hwix])
    refine ⟨?_, hnext, hidle, haerr, haovr, hcpend, hcerr, hcovr, hbits, fun hok => ⟨?_, ?_, ?_, hframe ?_⟩, fun herr => hframe ?_⟩
    · simp [convert_eq, hwix]
    · simp [convert_eq, hwix, hok]
    · simp [convert_eq, hwix, hok]
    · simp [convert_eq, hwix, hok]
    · simp [writes, State.reg, convert_eq, hwix]
    · simp [writes, State.reg, convert_eq, hwix, herr]

/-! The completion handler (R150 to R155). -/

theorem exec_isrSmp {s : State} (hl : s.cfg.legal = true)
    (henabled : Smpctl.cpend s.smpctl = true ∧ Busctl.bwait s.busctl = false) :
    exec .isrSmp s = .next { samplerHandler s with resp := .nothing } :=
  (isrSmp_next_iff s _).mpr ⟨hl, henabled, rfl⟩

theorem exec_isrSmp_of_not_enabled {s : State} (hl : s.cfg.legal = true)
    (h : ¬ (Smpctl.cpend s.smpctl = true ∧ Busctl.bwait s.busctl = false)) :
    exec .isrSmp s = .refused (.notEnabled .isrSmp) :=
  whenEnabled_of_disabled _ _ _ _ hl (Bool.eq_false_iff.mpr (mt (handlerEnabled_iff .sampler s).mp h))

/-- SMPCTL after the completion handler: the event is taken, and FIRST is set by a success (R150, R152, R153). -/
theorem samplerHandler_smpctl (s : State) :
    Smpctl.cpend (samplerHandler s).smpctl = false ∧
    Smpctl.cerr (samplerHandler s).smpctl = false ∧
    Smpctl.covr (samplerHandler s).smpctl = false ∧
    Smpctl.first (samplerHandler s).smpctl = (Smpctl.first s.smpctl || !Smpctl.cerr s.smpctl) ∧
    KeepsBits [5, 8, 9, 10] s.smpctl (samplerHandler s).smpctl := by
  have htaken : KeepsBits [5, 8, 9, 10] s.smpctl (takeHandler .sampler s).smpctl :=
    keepsBits_setBit _ 10 _ _ _ (by decide) (keepsBits_setBit _ 9 _ _ _ (by decide)
      (keepsBits_setBit _ 8 _ _ _ (by decide) (keepsBits_refl _ _)))
  rw [samplerHandler_eq]
  cases hcerr : Smpctl.cerr s.smpctl <;> cases hfirst : Smpctl.first s.smpctl
  case false.false =>
    exact ⟨by simp, by simp, by simp, by simp, keepsBits_setBit _ 5 _ _ _ (by decide) htaken⟩
  all_goals exact ⟨by simp, by simp, by simp, by simp [hfirst], htaken⟩

/-- The completion handler writes the sampler's three flags and no other bit of STAT. -/
theorem samplerHandler_keepsStatBits (s : State) : KeepsBits [3, 4, 5] s.stat (samplerHandler s).stat := by
  have hsteps : KeepsBits [3, 4, 5] s.stat
      (if Smpctl.cerr s.smpctl then handleError (takeHandler .sampler s) else handleSuccess (takeHandler .sampler s)).stat := by
    split
    · exact keepsBits_setBit _ 4 _ _ _ (by decide) (keepsBits_refl _ _)
    · rw [handleSuccess_eq]
      dsimp only
      have herr : KeepsBits [3, 4, 5] s.stat (Stat.setSmpErr false s.stat) :=
        keepsBits_setBit _ 4 _ _ _ (by decide) (keepsBits_refl _ _)
      split
      · exact herr
      · exact keepsBits_setBit _ 5 _ _ _ (by decide) herr
  rw [samplerHandler, handleOverrun_eq]
  dsimp only
  split
  · exact keepsBits_setBit _ 3 _ _ _ (by decide) hsteps
  · exact hsteps

/-- FT is seeded by the first success alone (R152, R154). -/
theorem samplerHandler_ft (s : State) : (samplerHandler s).ft =
    if Smpctl.cerr s.smpctl || Smpctl.first s.smpctl then s.ft else scale s.cfg s.smp0 := by
  rw [samplerHandler_eq]

/-- Settles O22. -/
theorem samplerHandlerRecordsErrorOverrunAndSeedsOnce : Obligations.SamplerHandlerRecordsErrorOverrunAndSeedsOnce := by
  refine ⟨by decide, fun s hl => ⟨exec_isrSmp_of_not_enabled hl, fun henabled => ?_⟩⟩
  have hexec := exec_isrSmp hl henabled
  have hframe := keepsAllBut_of_exec hexec nofun nofun (rs := [.smpctl, .stat, .ft]) (by simp [writes])
  obtain ⟨hcpend, hcerr, hcovr, hfirst, hbits⟩ := samplerHandler_smpctl s
  obtain ⟨hovr, herr, hnst, -⟩ := samplerHandler_flags s
  refine ⟨_, hexec, rfl, hcpend, hcerr, hcovr, herr, hovr.trans (Bool.or_comm _ _), ?seed, ?keep, hbits,
    samplerHandler_keepsStatBits s, hframe⟩
  case seed =>
    rintro ⟨hok, hfresh⟩
    rw [hok, hfresh] at hnst hfirst
    refine ⟨?_, hnst, hfirst⟩
    rw [samplerHandler_ft, hok, hfresh]
    exact scale_toNat s.cfg s.smp0
  case keep =>
    intro hkeep
    have hkeep' : (Smpctl.cerr s.smpctl || Smpctl.first s.smpctl) = true := by simpa using hkeep
    refine ⟨?_, by rw [hnst, hkeep', Bool.true_and], ?_⟩
    · rw [samplerHandler_ft, if_pos hkeep']
    · rw [hfirst]
      rcases hkeep with hkeep | hkeep <;> simp [hkeep]

/-! The status query (R160). -/

/-- Settles O23: the response's code is `samplerOk`, the two flags both clear. -/
theorem samplerStatusIsPure : Obligations.SamplerStatusIsPure := by
  refine ⟨by decide, fun s hl => (smpStatus_next_iff s _).mpr ⟨hl, ?_⟩⟩
  rw [samplerOk, Response.ofOk]
  cases Stat.smpNst s.stat <;> cases Stat.smpErr s.stat <;> rfl

end Sys2Proof.Machine
end

section
/-! The family 42_bus_port.md: the mailbox, the bus receive handler, the transmit wait and the aggregate query (O24 to O26, O28 to
O31). -/

namespace Sys2Proof.Machine

/-! The transmit wait (R178 to R182). -/

/-- The step is one of the core's (R13): an interrupt handler's or the main loop's. -/
def CoreStep (i : Instr) : Prop := i = .isrSmp ∨ i = .isrSeq ∨ i = .isrBus ∨ i = .mainStep

theorem agent_of_not_coreStep {i : Instr} (h : ¬ CoreStep i) :
    i.agent ≠ .samplerHandler ∧ i.agent ≠ .settleHandler ∧ i.agent ≠ .busHandler ∧ i.agent ≠ .mainLoop := by
  cases i <;> simp [CoreStep, Instr.agent] at h ⊢

/-- The guards of the core's steps ask for no active handler (R243, R271). -/
theorem bwait_of_coreStep {i : Instr} {s t : State} (h : exec i s = .next t) (hcore : CoreStep i) :
    Busctl.bwait s.busctl = false := by
  rcases hcore with rfl | rfl | rfl | rfl
  · obtain ⟨-, ⟨-, hfree⟩, -⟩ := (isrSmp_next_iff _ _).mp h
    exact hfree
  · obtain ⟨-, ⟨-, hfree⟩, -⟩ := (isrSeq_next_iff _ _).mp h
    exact hfree
  · obtain ⟨-, ⟨-, hfree⟩, -⟩ := (isrBus_next_iff _ _).mp h
    exact hfree
  · obtain ⟨-, ⟨-, hfree⟩, -⟩ := (mainStep_next_iff _ _).mp h
    exact hfree

theorem not_coreStep_of_wait {i : Instr} {s t : State} (h : exec i s = .next t) (hwait : Busctl.bwait s.busctl = true) :
    ¬ CoreStep i :=
  fun hcore => Bool.false_ne_true ((bwait_of_coreStep h hcore).symm.trans hwait)

/-- An operation that can end a wait: TX_DONE or RESET (R182). -/
def EndsWait (i : Instr) : Prop := i = .reset ∨ ∃ a e, i = .txDone a e

theorem not_endsWait_iff (i : Instr) : ¬ EndsWait i ↔ i ≠ .reset ∧ ∀ a e, i ≠ .txDone a e := by
  simp [EndsWait]

theorem arrive_bwait (kind : Bool) (d : Word) (s : State) :
    Busctl.bwait (arrive kind d s).busctl = Busctl.bwait s.busctl := by
  rw [arrive_eq]
  dsimp only
  split <;> simp

/-- BWAIT is written by ISR_BUS, TX_DONE and RESET alone: an arriving message writes the mailbox's two bits (R37). -/
theorem exec_keeps_bwait {i : Instr} {s t : State} (h : exec i s = .next t) (hcore : ¬ CoreStep i) (hend : ¬ EndsWait i) :
    Busctl.bwait t.busctl = Busctl.bwait s.busctl := by
  cases i with
  | reset => exact absurd (.inl rfl) hend
  | txDone a e => exact absurd (.inr ⟨a, e, rfl⟩) hend
  | isrBus => exact absurd (.inr (.inr (.inl rfl))) hcore
  | busCmd d => obtain ⟨-, rfl⟩ := (busCmd_next_iff _ _ _).mp h; exact arrive_bwait false d s
  | busStatreq => obtain ⟨-, rfl⟩ := (busStatreq_next_iff _ _).mp h; exact arrive_bwait true 0 s
  | _ => exact congrArg Busctl.bwait (exec_reg_of_not_written h (r := .busctl) (by simp [writes]))

/-- FOC is written by M3 and RESET alone: the home seek drives the rotary axes (R205, R247). -/
theorem exec_keeps_foc {i : Instr} {s t : State} (h : exec i s = .next t) (hcore : ¬ CoreStep i) (hend : ¬ EndsWait i) :
    Out.foc t.out = Out.foc s.out := by
  cases i with
  | reset => exact absurd (.inl rfl) hend
  | isrSeq => exact absurd (.inr (.inl rfl)) hcore
  | mainStep => exact absurd (.inr (.inr (.inr rfl))) hcore
  | seqStart =>
    obtain ⟨-, rfl⟩ := (seqStart_next_iff _ _).mp h
    rw [seqStart_eq]
    dsimp only
    split <;> simp
  | _ => exact congrArg Out.foc (exec_reg_of_not_written h (r := .out) (by simp [writes]))

/-- The registers that only the core and RESET write (R23, R24, R35, R37). -/
theorem not_mem_writes_of_not_coreStep {i : Instr} (hcore : ¬ CoreStep i) (hend : ¬ EndsWait i) {r : Reg}
    (hr : r ∈ [Reg.txw, .pv, .ftl, .ft, .rt]) : r ∉ writes i := by
  cases i with
  | reset => exact absurd (.inl rfl) hend
  | isrSmp => exact absurd (.inl rfl) hcore
  | isrBus => exact absurd (.inr (.inr (.inl rfl))) hcore
  | mainStep => exact absurd (.inr (.inr (.inr rfl))) hcore
  | _ => fin_cases hr <;> simp [writes]

/-- From `s` to `t` the block has gone on waiting, and the core has done nothing (R179). -/
def StillWaiting (s t : State) : Prop :=
  Busctl.bwait t.busctl = true ∧ t.txw = s.txw ∧ t.pv = s.pv ∧ t.ftl = s.ftl ∧ t.ft = s.ft ∧ t.rt = s.rt ∧
    Out.foc t.out = Out.foc s.out ∧ t.cfg = s.cfg

theorem StillWaiting.refl {s : State} (hwait : Busctl.bwait s.busctl = true) : StillWaiting s s :=
  ⟨hwait, rfl, rfl, rfl, rfl, rfl, rfl, rfl⟩

theorem StillWaiting.trans {s t u : State} (h : StillWaiting s t) (h' : StillWaiting t u) : StillWaiting s u := by
  obtain ⟨-, htxw, hpv, hftl, hft, hrt, hfoc, hcfg⟩ := h
  obtain ⟨hwait', htxw', hpv', hftl', hft', hrt', hfoc', hcfg'⟩ := h'
  exact ⟨hwait', htxw'.trans htxw, hpv'.trans hpv, hftl'.trans hftl, hft'.trans hft, hrt'.trans hrt, hfoc'.trans hfoc,
    hcfg'.trans hcfg⟩

/-- One step of a wait that does not end it. -/
theorem exec_stillWaiting {i : Instr} {s t : State} (h : exec i s = .next t) (hwait : Busctl.bwait s.busctl = true)
    (hend : ¬ EndsWait i) : StillWaiting s t := by
  have hcore := not_coreStep_of_wait h hwait
  have hkeep {r : Reg} (hr : r ∈ [Reg.txw, .pv, .ftl, .ft, .rt]) : t.reg r = s.reg r :=
    exec_reg_of_not_written h (not_mem_writes_of_not_coreStep hcore hend hr)
  exact ⟨(exec_keeps_bwait h hcore hend).trans hwait, hkeep (r := .txw) (by simp), hkeep (r := .pv) (by simp),
    hkeep (r := .ftl) (by simp), hkeep (r := .ft) (by simp), hkeep (r := .rt) (by simp), exec_keeps_foc h hcore hend, exec_cfg h⟩

/-- A run of a wait that does not end it: the wait is as it was, and no step of the core is in the run. -/
theorem execAll_stillWaiting {run : List Instr} {s t : State} (h : execAll run s = .next t)
    (hwait : Busctl.bwait s.busctl = true) (hend : ∀ i ∈ run, ¬ EndsWait i) :
    StillWaiting s t ∧ ∀ i ∈ run, ¬ CoreStep i := by
  induction run generalizing s with
  | nil =>
    rw [execAll_nil] at h
    cases h
    exact ⟨.refl hwait, nofun⟩
  | cons i is ih =>
    obtain ⟨u, hi, his⟩ := (execAll_cons_next_iff i is s t).mp h
    obtain ⟨hendi, hendis⟩ := List.forall_mem_cons.mp hend
    have hu : StillWaiting s u := exec_stillWaiting hi hwait hendi
    obtain ⟨ht, hcore⟩ := ih his hu.1 hendis
    exact ⟨hu.trans ht, List.forall_mem_cons.mpr ⟨not_coreStep_of_wait hi hwait, hcore⟩⟩

/-- No state of a wait is in R305's list (R182, R315; log 13). -/
theorem not_quiescent_of_wait {s : State} (hwait : Busctl.bwait s.busctl = true) : ¬ Quiescent s := by
  rintro ⟨-, -, -, -, -, hfree⟩
  simp [handlerActive, hwait] at hfree

/-- Settles O29: by induction on the run; at its end the host can still ask for the sampler's status. -/
theorem unansweredStatusRequestBlocksCoreForEver : Obligations.UnansweredStatusRequestBlocksCoreForEver := by
  intro run s t h hwait hend
  obtain ⟨⟨hwait', htxw, hpv, hftl, hft, hrt, hfoc, hcfg⟩, hcore⟩ :=
    execAll_stillWaiting h hwait fun i hi => (not_endsWait_iff i).mpr (hend i hi)
  refine ⟨hwait', htxw, hpv, hftl, hft, hrt, hfoc, fun i hi => agent_of_not_coreStep (hcore i hi), fun hl => ?_⟩
  exact ⟨not_quiescent_of_wait hwait', .smpStatus, _, rfl, nofun, nofun, (smpStatus_next_iff t _).mpr ⟨hcfg ▸ hl, rfl⟩⟩

/-- The end of the wait writes BWAIT and TXV (R180). -/
theorem returnFromWait_busctl (s : State) :
    Busctl.bwait (returnFromWait s).busctl = false ∧
    Busctl.txv (returnFromWait s).busctl = false ∧
    KeepsBits [2, 3] s.busctl (returnFromWait s).busctl :=
  ⟨by simp, by simp, keepsBits_setBit _ 3 _ _ _ (by decide) (keepsBits_setBit _ 2 _ _ _ (by decide) (keepsBits_refl _ _))⟩

/-- Settles O28: neither the guard nor the effect reads the reported result. -/
theorem transmitDoneEndsTheWait : Obligations.TransmitDoneEndsTheWait := by
  refine ⟨by decide, by decide, by decide, by decide, fun a e s hl => ⟨whenEnabled_of_disabled _ _ _ _ hl, fun hwait => ?_⟩⟩
  have hexec := (txDone_next_iff a e s _).mpr ⟨hl, hwait, rfl⟩
  obtain ⟨hfree, htxv, hbits⟩ := returnFromWait_busctl s
  exact ⟨_, hexec, rfl, hfree, htxv, transmitted_returnFromWait s, hbits,
    keepsAllBut_of_exec hexec nofun nofun (by simp [writes])⟩

/-! The guards, each in one place, and which of them read BUSCTL (R10, R179, R285). -/

/-- What an operation asks of the state, beyond a legal configuration. -/
def guardOf (i : Instr) (s : State) : Bool :=
  match i with
  | .txDone _ _ => handlerActive s
  | .readSample ch => (sampleOf ch s).isSome
  | .trgTick => Smpctl.sst s.smpctl != sstIdle
  | .conv _ _ _ => Smpctl.busy s.smpctl
  | .settleTick => Seqctl.sten s.seqctl
  | .isrSmp => handlerEnabled .sampler s
  | .isrSeq => handlerEnabled .sequencer s
  | .isrBus => handlerEnabled .bus s
  | .mainStep => mainEnabled s && (microStep s).isSome
  | .reset | .samplerInit | .seqStart | .mainStart | .busCmd _ | .busStatreq | .aggQuery _ | .smpStatus | .seqStatus
  | .readTargets => true

theorem enabled_of_complete {i : Instr} {g : Bool} {s t : State} {r : Response}
    (h : exec i s = whenEnabled i g s (complete t r)) : enabled i s = (s.cfg.legal && g) := by
  rw [enabled, h, whenEnabled, complete]
  cases s.cfg.legal <;> cases g <;> rfl

/-- Every operation is enabled exactly in a legal configuration with its guard true (R8, R10). -/
theorem enabled_eq (i : Instr) (s : State) : enabled i s = (s.cfg.legal && guardOf i s) := by
  cases i with
  | readSample ch =>
    rw [Bool.eq_iff_iff, enabled_iff]
    simp [readSample_next_iff, guardOf, Option.isSome_iff_exists]
  | mainStep =>
    rw [Bool.eq_iff_iff, enabled_iff]
    simp [mainStep_next_iff, guardOf, mainEnabled, handlerActive, Option.isSome_iff_exists]
  | _ => exact enabled_of_complete rfl

/-- The guards that read the wait are those of the core's steps and of TX_DONE. -/
theorem guardOf_withBusctl {i : Instr} (hcore : ¬ CoreStep i) (hdone : ∀ a e, i ≠ .txDone a e) (s : State) (w : Word) :
    guardOf i { s with busctl := w } = guardOf i s := by
  cases i with
  | txDone a e => exact absurd rfl (hdone a e)
  | isrSmp => exact absurd (.inl rfl) hcore
  | isrSeq => exact absurd (.inr (.inl rfl)) hcore
  | isrBus => exact absurd (.inr (.inr (.inl rfl))) hcore
  | mainStep => exact absurd (.inr (.inr (.inr rfl))) hcore
  | _ => rfl

theorem enabled_withBusctl {i : Instr} (hcore : ¬ CoreStep i) (hdone : ∀ a e, i ≠ .txDone a e) (s : State) (w : Word) :
    enabled i { s with busctl := w } = enabled i s := by
  rw [enabled_eq, enabled_eq, guardOf_withBusctl hcore hdone]

theorem not_coreStep_of_agent {i : Instr}
    (h : i.agent = .host ∨ i.agent = .samplingTimer ∨ i.agent = .conversionEngine ∨ i.agent = .settleTimer) :
    ¬ CoreStep i := by
  rintro (rfl | rfl | rfl | rfl) <;> simp [Instr.agent] at h

/-- Settles O30: the guards in question do not read BUSCTL. -/
theorem waitLeavesHardwareAndHostRunning : Obligations.WaitLeavesHardwareAndHostRunning := by
  intro i s hdone hagent
  have hcore := not_coreStep_of_agent hagent
  exact (enabled_withBusctl hcore hdone s _).trans (enabled_withBusctl hcore hdone s _).symm

/-! A message arrives (R171 to R173). -/

theorem arrive_of_full {s : State} (h : Busctl.mfull s.busctl = true) (kind : Bool) (d : Word) : arrive kind d s = s :=
  if_pos h

/-- The empty mailbox takes the message, and the wait is left alone. -/
theorem arrive_of_empty {s : State} (h : Busctl.mfull s.busctl = false) (kind : Bool) (d : Word) :
    Busctl.mfull (arrive kind d s).busctl = true ∧
    Busctl.mkind (arrive kind d s).busctl = kind ∧
    (arrive kind d s).mdata = d ∧
    KeepsBits [0, 1] s.busctl (arrive kind d s).busctl := by
  have hfill : arrive kind d s = { s with
      busctl := s.busctl |> Busctl.setMfull true |> Busctl.setMkind kind, mdata := d } := if_neg (by simp [h])
  rw [hfill]
  exact ⟨by simp, by simp, rfl, keepsBits_setBit _ 1 _ _ _ (by decide)
    (keepsBits_setBit _ 0 _ _ _ (by decide) (keepsBits_refl _ _))⟩

theorem decode_busCmd (d : Word) : decode (0x08#8 ++ d) = .ok (.busCmd d) :=
  decodingAnEncodedOperationGivesItBack (.busCmd d) rfl

/-- Settles O24. -/
theorem commandFillsAnEmptyMailbox : Obligations.CommandFillsAnEmptyMailbox := by
  refine ⟨decode_busCmd, fun d s hl => ?_⟩
  have hexec := (busCmd_next_iff d s _).mpr ⟨hl, rfl⟩
  refine ⟨_, hexec, rfl, fun hempty => ?_, fun hfull => by rw [arrive_of_full hfull]⟩
  obtain ⟨hmfull, hmkind, hmdata, hbits⟩ := arrive_of_empty hempty false d
  exact ⟨hmfull, hmkind, hmdata, hbits, keepsAllBut_of_exec hexec nofun nofun (by simp [writes])⟩

/-- Settles O25. -/
theorem statusRequestFillsAnEmptyMailbox : Obligations.StatusRequestFillsAnEmptyMailbox := by
  refine ⟨by decide, fun s hl => ?_⟩
  have hexec := (busStatreq_next_iff s _).mpr ⟨hl, rfl⟩
  refine ⟨_, hexec, rfl, fun hempty => ?_, fun hfull => by rw [arrive_of_full hfull]⟩
  obtain ⟨hmfull, hmkind, hmdata, hbits⟩ := arrive_of_empty hempty true 0
  exact ⟨hmfull, hmkind, hmdata, hbits, keepsAllBut_of_exec hexec nofun nofun (by simp [writes])⟩

/-! The bus receive handler (R174 to R178). -/

theorem validPhase_iff (r : Word) : validPhase r = true ↔ r.toNat ≤ 2 := by
  refine ⟨validPhase_toNat_le, fun h => ?_⟩
  simp only [validPhase, Bool.or_eq_true, beq_iff_eq, ← BitVec.toNat_inj, BitVec.toNat_ofNat]
  omega

/-- A byte of the data word as a word has the byte's value (R97). -/
theorem toNat_commandFields (d : Word) : (focField d).toNat = (d.extractLsb' 8 8).toNat ∧
    (rotField d).toNat = (d.extractLsb' 0 8).toNat :=
  ⟨BitVec.toNat_setWidth_of_le (by decide), BitVec.toNat_setWidth_of_le (by decide)⟩

/-- The low byte of the scaled position (R98, R140). -/
theorem scale_lowByte (p : Params) (raw : SampleWord) :
    (scale p raw).extractLsb' 0 8 = BitVec.ofNat 8 ((raw.toNat &&& p.mask) / p.scale) := by
  apply BitVec.eq_of_toNat_eq
  rw [BitVec.extractLsb'_toNat, scale_toNat, Nat.shiftRight_zero, BitVec.toNat_ofNat]

/-- Taking the message writes MFULL and MKIND (R174, R272). -/
theorem takeHandler_bus_keepsBits (s : State) : KeepsBits [0, 1] s.busctl (takeHandler .bus s).busctl :=
  keepsBits_setBit _ 1 _ _ _ (by decide) (keepsBits_setBit _ 0 _ _ _ (by decide) (keepsBits_refl _ _))

theorem keepsBits_mono {bits bits' : List Nat} (hsub : bits ⊆ bits') {w w' : Word} (h : KeepsBits bits w w') :
    KeepsBits bits' w w' := fun i hi => h i fun hmem => hi (hsub hmem)

/-- Emitting the status word writes BWAIT and TXV (R178). -/
theorem emitTx_keepsBits (w : Word) (s : State) : KeepsBits [2, 3] s.busctl (emitTx w s).busctl :=
  keepsBits_setBit _ 2 _ _ _ (by decide) (keepsBits_setBit _ 3 _ _ _ (by decide) (keepsBits_refl _ _))

theorem busHandler_of_command {s : State} (h : Busctl.mkind s.busctl = false) :
    busHandler s = decodeCommand s.mdata (takeHandler .bus s) := by
  simp [busHandler, h]

theorem busHandler_of_statusRequest {s : State} (h : Busctl.mkind s.busctl = true) :
    busHandler s = emitTx (statusWord s) (takeHandler .bus s) := by
  simp [busHandler, h]

theorem busHandler_empties_mailbox (s : State) :
    Busctl.mfull (busHandler s).busctl = false ∧ Busctl.mkind (busHandler s).busctl = false ∧ (busHandler s).mdata = 0 := by
  cases hkind : Busctl.mkind s.busctl
  · rw [busHandler_of_command hkind]
    simp
  · rw [busHandler_of_statusRequest hkind]
    simp

/-- The targets after a Command, each kept when its byte is out of range (R175). -/
theorem busHandler_targets_of_command {s : State} (hkind : Busctl.mkind s.busctl = false) :
    (busHandler s).ft =
      (if (s.mdata.extractLsb' 8 8).toNat ≤ s.cfg.focusMax then (s.mdata.extractLsb' 8 8).setWidth 32 else s.ft) ∧
    (busHandler s).rt = (if (s.mdata.extractLsb' 0 8).toNat ≤ 2 then (s.mdata.extractLsb' 0 8).setWidth 32 else s.rt) := by
  obtain ⟨hfoc, hrot⟩ := toNat_commandFields s.mdata
  rw [busHandler_of_command hkind]
  simp only [decodeCommand_fields, takeHandler_bus_fields, validPhase_iff, hfoc, hrot]
  exact ⟨rfl, rfl⟩

/-- The bytes of the status word (R98, R177). -/
theorem statusWord_bytes (s : State) :
    (statusWord s).extractLsb' 0 8 = s.rt.extractLsb' 0 8 ∧
    (statusWord s).extractLsb' 8 8 = BitVec.ofNat 8 ((s.smp0.toNat &&& s.cfg.mask) / s.cfg.scale) ∧
    (statusWord s).extractLsb' 16 16 = 0#16 :=
  ⟨packBytes_low _ _, (packBytes_high _ _).trans (scale_lowByte _ _), packBytes_upper _ _⟩

theorem exec_isrBus_of_not_enabled {s : State} (hl : s.cfg.legal = true)
    (h : ¬ (Busctl.mfull s.busctl = true ∧ Busctl.bwait s.busctl = false)) :
    exec .isrBus s = .refused (.notEnabled .isrBus) :=
  whenEnabled_of_disabled _ _ _ _ hl (Bool.eq_false_iff.mpr (mt (handlerEnabled_iff .bus s).mp h))

/-- Settles O26: the two kinds of message by `busHandler_of_command` and `busHandler_of_statusRequest`. -/
theorem busHandlerDecodesOrAnswers : Obligations.BusHandlerDecodesOrAnswers := by
  refine ⟨by decide, fun s hl => ⟨exec_isrBus_of_not_enabled hl, fun henabled => ?_⟩⟩
  have hexec := (isrBus_next_iff s _).mpr ⟨hl, henabled, rfl⟩
  have hframe {rs : List Reg} := keepsAllBut_of_exec (rs := rs) hexec nofun nofun
  obtain ⟨hmfull, hmkind, hmdata⟩ := busHandler_empties_mailbox s
  refine ⟨_, hexec, rfl, hmfull, hmkind, hmdata, fun hkind => ?command, fun hkind => ?statusRequest⟩
  case command =>
    obtain ⟨hft, hrt⟩ := busHandler_targets_of_command hkind
    refine ⟨hft, hrt, ?_, hframe ?_⟩
    · rw [busHandler_of_command hkind]
      exact takeHandler_bus_keepsBits s
    · simp [writes, State.reg, busHandler_of_command hkind]
  case statusRequest =>
    obtain ⟨hrt, hscale, hupper⟩ := statusWord_bytes s
    have hbits : KeepsBits [0, 1, 2, 3] s.busctl (emitTx (statusWord s) (takeHandler .bus s)).busctl :=
      keepsBits_trans (keepsBits_mono (by simp) (takeHandler_bus_keepsBits s))
        (keepsBits_mono (by simp) (emitTx_keepsBits _ _))
    have hframe' : KeepsAllBut [.busctl, .mdata, .txw] s { busHandler s with resp := .nothing } :=
      hframe (by simp [writes, State.reg, busHandler_of_statusRequest hkind])
    rw [busHandler_of_statusRequest hkind] at hframe' ⊢
    exact ⟨hrt, hscale, hupper, by simp, by simp, transmitted_emitTx _ _, hbits, hframe'⟩

/-! The aggregate query (R185). -/

theorem ofOk_aggregateOk (b : Bool) (s : State) : Response.ofOk (aggregateOk b s) =
    .status (if b = true ∨ Stat.smpOvr s.stat = true then 1#1 else 0#1) := by
  rw [aggregateOk, Response.ofOk]
  cases b <;> cases Stat.smpOvr s.stat <;> rfl

/-- Settles O31. -/
theorem aggregateQueryReadsAndClearsOverrun : Obligations.AggregateQueryReadsAndClearsOverrun := by
  refine ⟨by decide, by decide, fun b s hl => ?_⟩
  obtain ⟨hovr, -⟩ := Stat.setSmpOvr_flags false s.stat
  have hexec := (aggQuery_next_iff b s _).mpr ⟨hl, rfl⟩
  exact ⟨_, hexec, ofOk_aggregateOk b s, hovr, keepsBits_setBit _ 3 _ _ _ (by decide) (keepsBits_refl _ _),
    keepsAllBut_of_exec hexec nofun nofun (by simp [writes])⟩

end Sys2Proof.Machine
end

section
/-! The family 43_sequencer.md: how a MAIN_STEP answers (R243), and what it keeps. -/

namespace Sys2Proof.Machine

/-- The main loop has its step: it runs and no handler is active (R243, R274), in a legal configuration (R8). -/
def MainReady (s : State) : Prop :=
  s.cfg.legal = true ∧ Mainctl.mrun s.mainctl = true ∧ Busctl.bwait s.busctl = false

theorem exec_mainStep {s u : State} (hs : MainReady s) (hu : microStep s = some u) :
    exec .mainStep s = .next { u with resp := .nothing } := by
  obtain ⟨hl, hrun, hfree⟩ := hs
  exact (mainStep_next_iff s _).mpr ⟨hl, ⟨hrun, hfree⟩, u, hu, rfl⟩

/-- MRUN is written by MAIN_START and RESET alone (R242). -/
theorem microStep_keeps_mrun {s u : State} (h : microStep s = some u) :
    Mainctl.mrun u.mainctl = Mainctl.mrun s.mainctl := by
  rcases microStep_cases s u h with ⟨-, rfl⟩ | ⟨-, rfl⟩ | ⟨-, rfl⟩ | ⟨-, rfl⟩ | ⟨-, rfl⟩ | ⟨-, rfl⟩ | ⟨-, rfl⟩ | ⟨-, rfl⟩ |
    ⟨-, rfl⟩ | ⟨-, rfl⟩ | ⟨-, rfl⟩
  · simp [microM0]
  · simp [microM1]
  · simp [microM2]
  · simp [microM3]
  · simp [microM4]
  · simp only [microM5]
    split <;> simp
  · simp [microSp1]
  · simp [microSp2]
  · simp [microSp3_eq]
  · simp [microSp4]
  · simp [microSp5]

/-- A micro-step leaves the main loop ready for the next one. -/
theorem MainReady.step {s t : State} (hs : MainReady s) (h : exec .mainStep s = .next t) : MainReady t := by
  obtain ⟨hl, hrun, hfree⟩ := hs
  have hbus : t.busctl = s.busctl := exec_reg_of_not_written h (r := .busctl) (by simp [writes])
  obtain ⟨-, -, u, hu, rfl⟩ := (mainStep_next_iff s t).mp h
  exact ⟨exec_cfg h ▸ hl, (microStep_keeps_mrun hu).trans hrun, hbus ▸ hfree⟩

/-- The frame of a micro-step that takes no draw: `keepsAllBut_of_exec` for MAIN_STEP. -/
theorem keepsAllBut_of_mainStep {s t : State} (h : exec .mainStep s = .next t) (hdraws : t.draws = s.draws) {rs : List Reg}
    (hrs : ∀ r ∈ writes .mainStep, r ∈ rs ∨ t.reg r = s.reg r) : KeepsAllBut rs s t := by
  obtain ⟨hcfg, hevents⟩ := exec_sameConfigAndTrace h
  refine ⟨fun r hr => ?_, hcfg, hevents, hdraws⟩
  by_cases hw : r ∈ writes .mainStep
  · exact (hrs r hw).resolve_left hr
  · exact exec_reg_of_not_written h hw

theorem setMpc_keepsBits (v : BitVec 4) (w : Word) : KeepsBits [4, 5, 6, 7] w (Mainctl.setMpc v w) :=
  keepsBits_setField _ 4 _ _ _ (by decide) (keepsBits_refl _ _)

/-- A field that is written twice holds the second value (R74). -/
theorem setField_setField_same {len : Nat} (lo : Nat) (v v' : BitVec len) (w : Word) :
    setField lo v (setField lo v' w) = setField lo v w := by
  apply BitVec.eq_of_getLsbD_eq
  intro i _
  simp only [getLsbD_setField]
  split <;> rfl

theorem setMpc_setMpc (v v' : BitVec 4) (w : Word) : Mainctl.setMpc v (Mainctl.setMpc v' w) = Mainctl.setMpc v w :=
  setField_setField_same 4 v v' w

end Sys2Proof.Machine
end

section
/-! The family 43_sequencer.md: the Rotary Phase Sequencer and the setPhase of the main loop (O32 to O34, O36, O37, O45 to
O48). -/

namespace Sys2Proof.Machine

/-- Driving the rotary axes writes AXA and AXB (R33). -/
theorem driveAxes_keepsBits (p : Dir × Dir) (w : Word) : KeepsBits [2, 3, 4, 5] w (driveAxes p w) :=
  keepsBits_setField _ 4 _ _ _ (by decide) (keepsBits_setField _ 2 _ _ _ (by decide) (keepsBits_refl _ _))

/-! The home seek (R205). -/

theorem seqStart_of_started {s : State} (h : Seqctl.started s.seqctl = true) : seqStart s = s := if_pos h

/-- SEQCTL after the first SEQ_START. -/
theorem seqStart_seqctl_of_not_started {s : State} (h : Seqctl.started s.seqctl = false) :
    Seqctl.started (seqStart s).seqctl = true ∧
    Seqctl.cp (seqStart s).seqctl = 0#2 ∧
    Seqctl.sten (seqStart s).seqctl = true ∧
    Seqctl.tip (seqStart s).seqctl = true ∧
    KeepsBits [0, 1, 2, 3, 4] s.seqctl (seqStart s).seqctl := by
  simp only [seqStart_eq, h]
  refine ⟨by simp, by simp, by simp, by simp, ?_⟩
  exact keepsBits_setBit _ 2 _ _ _ (by decide) (keepsBits_setBit _ 4 _ _ _ (by decide)
    (keepsBits_setField _ 0 _ _ _ (by decide) (keepsBits_setBit _ 3 _ _ _ (by decide) (keepsBits_refl _ _))))

/-- The first SEQ_START drives both axes in reverse and restarts the settle count. -/
theorem seqStart_out_of_not_started {s : State} (h : Seqctl.started s.seqctl = false) :
    (seqStart s).out = driveAxes (.rev, .rev) s.out ∧ (seqStart s).stcnt = 0 := by
  simp [seqStart_eq, h]

/-- Settles O32. -/
theorem sequencerStartSeeksHomeOnce : Obligations.SequencerStartSeeksHomeOnce := by
  refine ⟨by decide, fun s hl => ?_⟩
  have hexec := (seqStart_next_iff s _).mpr ⟨hl, rfl⟩
  refine ⟨_, hexec, rfl, fun hfresh => ?_, fun hstarted => by rw [seqStart_of_started hstarted]⟩
  have hframe := keepsAllBut_of_exec hexec nofun nofun (rs := [.seqctl, .out, .stcnt]) (by simp [writes])
  obtain ⟨hstarted, hcp, hsten, htip, hbits⟩ := seqStart_seqctl_of_not_started hfresh
  obtain ⟨hout, hcnt⟩ := seqStart_out_of_not_started hfresh
  obtain ⟨-, haxa, haxb, -⟩ := driveAxes_fields (.rev, .rev) s.out
  exact ⟨hstarted, hcp, hout ▸ haxa, hout ▸ haxb, hcnt, hsten, htip, hbits, hout ▸ driveAxes_keepsBits _ _, hframe⟩

/-! The settle timer (R210, R211). -/

theorem exec_settleTick {s : State} (hl : s.cfg.legal = true) (hsten : Seqctl.sten s.seqctl = true) :
    exec .settleTick s = .next { settleTick s with resp := .nothing } :=
  (settleTick_next_iff s _).mpr ⟨hl, hsten, rfl⟩

theorem exec_settleTick_of_stopped {s : State} (hl : s.cfg.legal = true) (hsten : Seqctl.sten s.seqctl = false) :
    exec .settleTick s = .refused (.notEnabled .settleTick) :=
  whenEnabled_of_disabled _ _ _ _ hl hsten

theorem settleTick_keepsAllBut {s t : State} (h : exec .settleTick s = .next t) : KeepsAllBut [.stcnt, .seqctl] s t :=
  keepsAllBut_of_exec h nofun nofun (by simp [writes])

/-- The tick that reaches the period stops the timer and raises its line. -/
theorem settleTick_seqctl_of_period {s : State} (h : s.stcnt.toNat + 1 = s.cfg.settleTicks) :
    Seqctl.sten (settleTick s).seqctl = false ∧
    Seqctl.stelapsed (settleTick s).seqctl = true ∧
    KeepsBits [4, 5] s.seqctl (settleTick s).seqctl := by
  simp only [settleTick, if_pos h]
  exact ⟨by simp, by simp,
    keepsBits_setBit _ 5 _ _ _ (by decide) (keepsBits_setBit _ 4 _ _ _ (by decide) (keepsBits_refl _ _))⟩

theorem settleTick_seqctl_of_not_period {s : State} (h : s.stcnt.toNat + 1 ≠ s.cfg.settleTicks) :
    (settleTick s).seqctl = s.seqctl := if_neg h

/-- A count below the period does not wrap, the period fitting the counter (log 11). -/
theorem settleTick_stcnt_toNat {s : State} (hlt : s.stcnt.toNat < s.cfg.settleTicks) (hperiod : s.cfg.settleTicks < 2 ^ 32) :
    (settleTick s).stcnt.toNat = s.stcnt.toNat + 1 := by
  show (s.stcnt + 1).toNat = s.stcnt.toNat + 1
  rw [BitVec.toNat_add_of_lt (by simp; omega)]
  rfl

/-- Settles O33. -/
theorem settleTickCountsAndElapses : Obligations.SettleTickCountsAndElapses := by
  refine ⟨by decide, fun s hl => ⟨exec_settleTick_of_stopped hl, fun hsten => ?_⟩⟩
  have hexec := exec_settleTick hl hsten
  exact ⟨_, hexec, rfl, rfl, settleTick_keepsAllBut hexec, settleTick_seqctl_of_period, settleTick_seqctl_of_not_period⟩

/-- `k` ticks after `s`, before the period ends: they have counted and done nothing else. -/
def CountedSettleTicks (s : State) (k : Nat) (u : State) : Prop :=
  u.seqctl = s.seqctl ∧ u.stcnt.toNat = s.stcnt.toNat + k ∧ KeepsAllBut [.stcnt, .seqctl] s u

/-- One more tick that does not reach the period. -/
theorem CountedSettleTicks.tick {s u : State} {k : Nat} (hu : CountedSettleTicks s k u) (hl : s.cfg.legal = true)
    (hsten : Seqctl.sten s.seqctl = true) (hk : s.stcnt.toNat + k + 1 < s.cfg.settleTicks)
    (hperiod : s.cfg.settleTicks < 2 ^ 32) : ∃ v, exec .settleTick u = .next v ∧ CountedSettleTicks s (k + 1) v := by
  obtain ⟨hseq, hcount, hframe⟩ := hu
  have hcfg : u.cfg = s.cfg := hframe.2.1
  have hexec := exec_settleTick (s := u) (hcfg ▸ hl) (hseq ▸ hsten)
  refine ⟨_, hexec, ?_, ?_, keepsAllBut_trans hframe (settleTick_keepsAllBut hexec)⟩
  · exact (settleTick_seqctl_of_not_period (by rw [hcfg]; omega)).trans hseq
  · have hnext := settleTick_stcnt_toNat (s := u) (by rw [hcfg]; omega) (hcfg ▸ hperiod)
    exact hnext.trans (by omega)

/-- Settles O34: all ticks but the last count, and the last one elapses the timer. -/
theorem settleWindowElapsesExactlyOnce : Obligations.SettleWindowElapsesExactlyOnce := by
  intro s hl hperiod hsten hlt
  obtain ⟨n, hn⟩ : ∃ n, s.cfg.settleTicks = s.stcnt.toNat + n + 1 := Nat.exists_eq_add_of_lt hlt
  have hcounted := execAll_replicate (P := CountedSettleTicks s) (i := .settleTick) (n := n)
    ⟨rfl, rfl, keepsAllBut_refl _ s⟩ (fun k u hk hu => hu.tick hl hsten (by omega) hperiod)
  refine ⟨fun k hk => ?early, ?elapsed⟩
  case early =>
    obtain ⟨u, hrun, hseq, -, -⟩ := hcounted k (by omega)
    exact ⟨u, hrun, hseq ▸ hsten, by rw [hseq]⟩
  case elapsed =>
    obtain ⟨u, hrun, hseq, hcount, hframe⟩ := hcounted n le_rfl
    have hcfg : u.cfg = s.cfg := hframe.2.1
    have hexec := exec_settleTick (s := u) (hcfg ▸ hl) (hseq ▸ hsten)
    have hexpand : Pseudo.expand .settle s = List.replicate n .settleTick ++ [.settleTick] := by
      rw [← List.replicate_succ', Pseudo.expand]
      congr 1
      omega
    obtain ⟨hstopped, helapsed, hbits⟩ := settleTick_seqctl_of_period (s := u) (by rw [hcfg]; omega)
    have hnext := settleTick_stcnt_toNat (s := u) (by rw [hcfg]; omega) (hcfg ▸ hperiod)
    refine ⟨_, hexpand ▸ (execAll_append_next_iff _ _ s _).mpr
      ⟨u, hrun, (execAll_cons_next_iff _ _ u _).mpr ⟨_, hexec, execAll_nil _⟩⟩, ?_⟩
    exact ⟨hnext.trans (by omega), hstopped, helapsed, hseq ▸ hbits, keepsAllBut_trans hframe (settleTick_keepsAllBut hexec),
      exec_settleTick_of_stopped (exec_cfg hexec ▸ hcfg ▸ hl) hstopped⟩

/-! The settle handler (R215). -/

theorem exec_isrSeq_of_not_enabled {s : State} (hl : s.cfg.legal = true)
    (h : ¬ (Seqctl.stelapsed s.seqctl = true ∧ Busctl.bwait s.busctl = false)) :
    exec .isrSeq s = .refused (.notEnabled .isrSeq) :=
  whenEnabled_of_disabled _ _ _ _ hl (Bool.eq_false_iff.mpr (mt (handlerEnabled_iff .sequencer s).mp h))

/-- The settle handler takes the event and ends the transition. -/
theorem settleHandler_seqctl (s : State) :
    Seqctl.stelapsed (settleHandler s).seqctl = false ∧
    Seqctl.tip (settleHandler s).seqctl = false ∧
    KeepsBits [2, 5] s.seqctl (settleHandler s).seqctl := by
  refine ⟨by simp [settleHandler], by simp [settleHandler], ?_⟩
  exact keepsBits_setBit _ 2 _ _ _ (by decide) (keepsBits_setBit _ 5 _ _ _ (by decide) (keepsBits_refl _ _))

/-- The settle handler clears SEQ_NST (R25). -/
theorem settleHandler_stat (s : State) :
    Stat.seqNst (settleHandler s).stat = false ∧ KeepsBits [8] s.stat (settleHandler s).stat :=
  ⟨by simp [settleHandler], keepsBits_setBit _ 8 _ _ _ (by decide) (keepsBits_refl _ _)⟩

/-- Settles O36. -/
theorem settleHandlerIdlesBothAxes : Obligations.SettleHandlerIdlesBothAxes := by
  refine ⟨by decide, fun s hl => ⟨exec_isrSeq_of_not_enabled hl, fun henabled => ?_⟩⟩
  have hexec := (isrSeq_next_iff s _).mpr ⟨hl, henabled, rfl⟩
  obtain ⟨-, haxa, haxb, -⟩ := driveAxes_fields (.idle, .idle) s.out
  obtain ⟨htaken, htip, hseqBits⟩ := settleHandler_seqctl s
  obtain ⟨hnst, hstatBits⟩ := settleHandler_stat s
  exact ⟨_, hexec, rfl, haxa, haxb, htaken, hnst, htip, driveAxes_keepsBits _ _, hseqBits, hstatBits,
    keepsAllBut_of_exec hexec nofun nofun (by simp [writes])⟩

/-! The status query (R225). -/

/-- Settles O37: SEQ_ERR is hardwired 0, so the response's code is SEQ_NST. -/
theorem sequencerStatusIsPure : Obligations.SequencerStatusIsPure := by
  refine ⟨by decide, fun s hl => ?_⟩
  obtain ⟨-, -, -, -, hseqErr⟩ := stat_hardwired s.stat
  refine ⟨hseqErr, (seqStatus_next_iff s _).mpr ⟨hl, ?_⟩⟩
  rw [sequencerOk, Response.ofOk, hseqErr]
  cases Stat.seqNst s.stat <;> rfl

/-! The setPhase of the main loop, micro-step by micro-step (R231 to R235). -/

section
variable {s : State}

/-- SP1 (R231). -/
theorem exec_mainStep_compare (hs : MainReady s) (hmpc : Mainctl.mpc s.mainctl = 6#4) :
    exec .mainStep s = .next { s with
      mainctl := Mainctl.setMpc (if Mainctl.tgt s.mainctl = Seqctl.cp s.seqctl then 0 else 7) s.mainctl
      resp := .nothing } :=
  exec_mainStep hs (microStep_at_6 s hmpc)

/-- SP2 (R232). -/
theorem exec_mainStep_disarm (hs : MainReady s) (hmpc : Mainctl.mpc s.mainctl = 7#4) :
    exec .mainStep s = .next { s with
      seqctl := Seqctl.setSten false s.seqctl, stcnt := 0, mainctl := Mainctl.setMpc 8 s.mainctl, resp := .nothing } :=
  exec_mainStep hs (microStep_at_7 s hmpc)

/-- SP3, where the direction table has a row (R233). -/
theorem exec_mainStep_drive (hs : MainReady s) (hmpc : Mainctl.mpc s.mainctl = 8#4) {d : Dir × Dir}
    (hrow : dirOfCodes (Seqctl.cp s.seqctl) (Mainctl.tgt s.mainctl) = some d) :
    exec .mainStep s = .next { s with
      out := driveAxes d s.out, mainctl := Mainctl.setMpc 9 s.mainctl, resp := .nothing } := by
  rw [exec_mainStep hs (microStep_at_8 s hmpc), microSp3_eq, hrow]
  rfl

/-- SP4 (R234). -/
theorem exec_mainStep_commit (hs : MainReady s) (hmpc : Mainctl.mpc s.mainctl = 9#4) :
    exec .mainStep s = .next { s with
      seqctl := s.seqctl |> Seqctl.setCp (Mainctl.tgt s.mainctl) |> Seqctl.setTip true
      mainctl := Mainctl.setMpc 10 s.mainctl
      resp := .nothing } :=
  exec_mainStep hs (microStep_at_9 s hmpc)

/-- SP5 (R235). -/
theorem exec_mainStep_rearm (hs : MainReady s) (hmpc : Mainctl.mpc s.mainctl = 10#4) :
    exec .mainStep s = .next { s with
      seqctl := Seqctl.setSten true s.seqctl, mainctl := Mainctl.setMpc 0 s.mainctl, resp := .nothing } :=
  exec_mainStep hs (microStep_at_10 s hmpc)

end

/-- Starting or stopping the settle timer writes STEN alone, so an elapsed event stays (R232, R235). -/
theorem setSten_keepsBits (b : Bool) (w : Word) : KeepsBits [4] w (Seqctl.setSten b w) :=
  keepsBits_setBit _ 4 _ _ _ (by decide) (keepsBits_refl _ _)

/-- Settles O45. -/
theorem setPhaseComparesAndDisarms : Obligations.SetPhaseComparesAndDisarms := by
  intro s hl hrun hfree
  refine ⟨fun hmpc => ?compare, fun hmpc => ?disarm⟩
  case compare =>
    have hexec := exec_mainStep_compare ⟨hl, hrun, hfree⟩ hmpc
    exact ⟨_, hexec, rfl, by simp, setMpc_keepsBits _ _,
      keepsAllBut_of_mainStep hexec rfl (by simp [writes, State.reg])⟩
  case disarm =>
    have hexec := exec_mainStep_disarm ⟨hl, hrun, hfree⟩ hmpc
    exact ⟨_, hexec, rfl, by simp, rfl, by simp, by simp, setSten_keepsBits _ _, setMpc_keepsBits _ _,
      keepsAllBut_of_mainStep hexec rfl (by simp [writes, State.reg])⟩

/-! The direction table (R200, R201). -/

/-- Every code but 3 is a phase (R99). -/
theorem exists_phase_of_code {c : BitVec 2} (h : c ≠ 3#2) : ∃ p : Phase, p.code = c := by
  have key : ∀ c : BitVec 2, c = 0#2 ∨ c = 1#2 ∨ c = 2#2 ∨ c = 3#2 := by decide
  rcases key c with rfl | rfl | rfl | rfl
  · exact ⟨.phase0, rfl⟩
  · exact ⟨.phase1, rfl⟩
  · exact ⟨.phase2, rfl⟩
  · exact absurd rfl h

theorem ofCode_code (p : Phase) : Phase.ofCode p.code = some p := by
  cases p <;> rfl

theorem dirOfCodes_code (p q : Phase) : dirOfCodes p.code q.code = dirTable p q := by
  simp only [dirOfCodes, ofCode_code]

/-- Two distinct phases have a row (R200), which their codes select. -/
theorem exists_row {src dst : BitVec 2} (hsrc : src ≠ 3#2) (hdst : dst ≠ 3#2) (hne : src ≠ dst) :
    ∃ p q d, Phase.code p = src ∧ Phase.code q = dst ∧ dirTable p q = some d ∧ dirOfCodes src dst = some d := by
  obtain ⟨p, rfl⟩ := exists_phase_of_code hsrc
  obtain ⟨q, rfl⟩ := exists_phase_of_code hdst
  obtain ⟨d, hd⟩ := Option.isSome_iff_exists.mp ((dirTable_isSome_iff p q).mpr fun hpq => hne (congrArg _ hpq))
  exact ⟨p, q, d, rfl, rfl, hd, (dirOfCodes_code p q).trans hd⟩

/-- At SP3 the invariant has two distinct phases (R233). -/
theorem ControlInv.distinct_phases {s : State} (hs : ControlInv s) (hmpc : Mainctl.mpc s.mainctl = 8#4) :
    Seqctl.cp s.seqctl ≠ Mainctl.tgt s.mainctl ∧ Seqctl.cp s.seqctl ≠ 3#2 ∧ Mainctl.tgt s.mainctl ≠ 3#2 := by
  obtain ⟨-, -, -, ⟨hcp, htgt, -⟩, -, -, -, -, hmoves, -⟩ := (controlInv_iff s).mp hs
  exact ⟨hmoves (by rw [hmpc]; decide), hcp, htgt⟩

theorem code_ne_three {x : BitVec 2} (h : x.toNat ≤ 2) : x ≠ 3#2 := by
  rintro rfl
  simp at h

/-- Settles O46: the row of the pair of codes is the one that SP3 drives. -/
theorem setPhaseDrivesTheTableRow : Obligations.SetPhaseDrivesTheTableRow := by
  refine ⟨fun s hs hmpc => ?_, fun s hl hrun hfree hmpc hne hcp htgt => ?_⟩
  · obtain ⟨hne, hcp, htgt⟩ := hs.distinct_phases hmpc
    exact ⟨hne, code_le_two hcp, code_le_two htgt⟩
  · obtain ⟨-, -, d, -, -, -, hrow⟩ := exists_row (code_ne_three hcp) (code_ne_three htgt) hne
    have hexec := exec_mainStep_drive ⟨hl, hrun, hfree⟩ hmpc hrow
    have hdrive {src dst : BitVec 2} {a b : Dir} (hcodes : Seqctl.cp s.seqctl = src ∧ Mainctl.tgt s.mainctl = dst)
        (hab : dirOfCodes src dst = some (a, b)) :
        Out.axa (driveAxes d s.out) = a.code ∧ Out.axb (driveAxes d s.out) = b.code := by
      obtain ⟨hsrc, hdst⟩ := hcodes
      obtain rfl : d = (a, b) := Option.some.inj (hrow.symm.trans (hsrc ▸ hdst ▸ hab))
      obtain ⟨-, haxa, haxb, -⟩ := driveAxes_fields (a, b) s.out
      exact ⟨haxa, haxb⟩
    exact ⟨_, hexec, rfl,
      fun h => hdrive (a := .rev) (b := .fwd) h rfl, fun h => hdrive (a := .fwd) (b := .rev) h rfl,
      fun h => hdrive (a := .rev) (b := .idle) h rfl, fun h => hdrive (a := .idle) (b := .rev) h rfl,
      fun h => hdrive (a := .fwd) (b := .idle) h rfl, fun h => hdrive (a := .idle) (b := .fwd) h rfl,
      by simp, driveAxes_keepsBits _ _, setMpc_keepsBits _ _,
      keepsAllBut_of_mainStep hexec rfl (by simp [writes, State.reg])⟩

/-- The settle count is 0 from SP3 on in the invariant (R232, R235). -/
theorem ControlInv.stcnt_eq_zero {s : State} (hs : ControlInv s) (hmpc : 8 ≤ (Mainctl.mpc s.mainctl).toNat) :
    s.stcnt = 0#32 := by
  obtain ⟨-, -, -, -, -, -, -, -, -, hstopped⟩ := (controlInv_iff s).mp hs
  exact (hstopped hmpc).2

/-- Settles O47. -/
theorem setPhaseCommitsAndRearms : Obligations.SetPhaseCommitsAndRearms := by
  intro s hl hrun hfree
  refine ⟨fun hmpc => ?commit, fun hmpc => ?rearm⟩
  case commit =>
    have hexec := exec_mainStep_commit ⟨hl, hrun, hfree⟩ hmpc
    exact ⟨_, hexec, rfl, by simp, by simp, by simp,
      keepsBits_setBit _ 2 _ _ _ (by decide) (keepsBits_setField _ 0 _ _ _ (by decide) (keepsBits_refl _ _)),
      setMpc_keepsBits _ _, keepsAllBut_of_mainStep hexec rfl (by simp [writes, State.reg])⟩
  case rearm =>
    have hexec := exec_mainStep_rearm ⟨hl, hrun, hfree⟩ hmpc
    exact ⟨_, hexec, rfl, by simp, by simp, fun hs => hs.stcnt_eq_zero (by rw [hmpc]; decide), setSten_keepsBits _ _,
      setMpc_keepsBits _ _, keepsAllBut_of_mainStep hexec rfl (by simp [writes, State.reg])⟩

/-- SP1 to SP5 without interruption, to another phase (R237). -/
theorem execAll_setPhase {s : State} (hs : MainReady s) (hmpc : Mainctl.mpc s.mainctl = 6#4)
    (hne : Seqctl.cp s.seqctl ≠ Mainctl.tgt s.mainctl) {d : Dir × Dir}
    (hrow : dirOfCodes (Seqctl.cp s.seqctl) (Mainctl.tgt s.mainctl) = some d) :
    execAll (List.replicate 5 .mainStep) s = .next { s with
      out := driveAxes d s.out
      seqctl := s.seqctl |> Seqctl.setSten false |> Seqctl.setCp (Mainctl.tgt s.mainctl) |> Seqctl.setTip true
        |> Seqctl.setSten true
      stcnt := 0
      mainctl := Mainctl.setMpc 0 s.mainctl
      resp := .nothing } := by
  have h1 := exec_mainStep_compare hs hmpc
  rw [if_neg hne.symm] at h1
  have hs1 := hs.step h1
  have h2 := exec_mainStep_disarm hs1 (by simp)
  have hs2 := hs1.step h2
  have h3 := exec_mainStep_drive hs2 (by simp) (d := d) (by simpa using hrow)
  have hs3 := hs2.step h3
  have h4 := exec_mainStep_commit hs3 (by simp)
  have h5 := exec_mainStep_rearm (hs3.step h4) (by simp)
  simp only [List.replicate, execAll_cons_next_iff]
  exact ⟨_, h1, _, h2, _, h3, _, h4, _, h5, by simp [execAll_nil, setMpc_setMpc]⟩

/-- Settles O48. -/
theorem uninterruptedSetPhaseNetEffect : Obligations.UninterruptedSetPhaseNetEffect := by
  intro s hl hrun hfree hmpc hne hcp htgt
  obtain ⟨p, q, d, hp, hq, hd, hrow⟩ := exists_row hcp htgt hne
  obtain ⟨hfoc, haxa, haxb, -⟩ := driveAxes_fields d s.out
  refine ⟨_, p, q, d, execAll_setPhase ⟨hl, hrun, hfree⟩ hmpc hne hrow, hp, hq, hd, haxa, haxb, by simp, by simp, by simp, rfl,
    by simp, by simp, hfoc, ?_⟩
  exact ⟨fun r hr => by cases r <;> simp at hr <;> rfl, rfl, rfl, rfl⟩

end Sys2Proof.Machine
end

section
/-! The family 44_servo_main.md: the comparator, the start of the main loop and its micro-steps M0 to M5 (O38 to O44). -/

namespace Sys2Proof.Machine

/-! The comparator (R241). -/

theorem focusCmp_of_above {pv ft : Word} (h : ft.toNat < pv.toNat) : focusCmp pv ft = .rev := if_pos h

theorem focusCmp_of_below {pv ft : Word} (h : pv.toNat < ft.toNat) : focusCmp pv ft = .fwd := by
  rw [focusCmp, if_neg h.not_gt, if_pos h]

theorem focusCmp_self (pv : Word) : focusCmp pv pv = .idle := by
  rw [focusCmp, if_neg (lt_irrefl _), if_neg (lt_irrefl _)]

/-- Settles O38: the position is below, at or above the target, and each of the three has its own code. -/
theorem comparatorStopsExactlyOnEquality : Obligations.ComparatorStopsExactlyOnEquality := by
  intro pv ft
  refine ⟨fun h => by rw [focusCmp_of_above h]; rfl, fun h => by rw [focusCmp_of_below h]; rfl, fun hidle => ?_, ?_⟩
  · rcases lt_trichotomy pv.toNat ft.toNat with h | h | h
    · rw [focusCmp_of_below h] at hidle
      exact absurd hidle (by decide)
    · exact BitVec.eq_of_toNat_eq h
    · rw [focusCmp_of_above h] at hidle
      exact absurd hidle (by decide)
  · rintro rfl
    rw [focusCmp_self]
    rfl

/-! The start of the loop (R242). -/

theorem mainStart_of_running {s : State} (h : Mainctl.mrun s.mainctl = true) : mainStart s = s := if_pos h

/-- MAINCTL after the first MAIN_START. -/
theorem mainStart_mainctl_of_stopped {s : State} (h : Mainctl.mrun s.mainctl = false) :
    Mainctl.mrun (mainStart s).mainctl = true ∧
    Mainctl.mpc (mainStart s).mainctl = 0#4 ∧
    KeepsBits [0, 4, 5, 6, 7] s.mainctl (mainStart s).mainctl := by
  simp only [mainStart_eq, h]
  exact ⟨by simp, by simp,
    keepsBits_setField _ 4 _ _ _ (by decide) (keepsBits_setBit _ 0 _ _ _ (by decide) (keepsBits_refl _ _))⟩

/-- Settles O39. -/
theorem mainStartTakesEffectOnce : Obligations.MainStartTakesEffectOnce := by
  refine ⟨by decide, fun s hl => ?_⟩
  have hexec := (mainStart_next_iff s _).mpr ⟨hl, rfl⟩
  refine ⟨_, hexec, rfl, fun hstopped => ?_, fun hrunning => by rw [mainStart_of_running hrunning]⟩
  obtain ⟨hrun, hmpc, hbits⟩ := mainStart_mainctl_of_stopped hstopped
  exact ⟨hrun, hmpc, hbits, keepsAllBut_of_exec hexec nofun nofun (by simp [writes])⟩

/-! The guard of MAIN_STEP and the choice by MPC (R243). -/

theorem mainEnabled_iff (s : State) :
    mainEnabled s = true ↔ Mainctl.mrun s.mainctl = true ∧ Busctl.bwait s.busctl = false := by
  simp [mainEnabled, handlerActive]

theorem exec_mainStep_of_not_enabled {s : State} (hl : s.cfg.legal = true)
    (h : ¬ (Mainctl.mrun s.mainctl = true ∧ Busctl.bwait s.busctl = false)) :
    exec .mainStep s = .refused (.notEnabled .mainStep) :=
  whenEnabled_of_disabled _ _ _ _ hl (Bool.eq_false_iff.mpr (mt (mainEnabled_iff s).mp h))

/-- A value of MPC that names no micro-step is refused (R243). -/
theorem exec_mainStep_of_no_microStep {s : State} (hs : MainReady s) (h : microStep s = none) :
    exec .mainStep s = .refused (.reservedMicroStep (Mainctl.mpc s.mainctl)) := by
  obtain ⟨hl, henabled⟩ := hs
  rw [exec, execMainStep, whenEnabled_of_enabled _ _ _ _ hl ((mainEnabled_iff s).mpr henabled), h]

/-- Settles O40: MPC names a micro-step exactly up to 10. -/
theorem mainStepIsGuardedAndSelectedByMpc : Obligations.MainStepIsGuardedAndSelectedByMpc := by
  refine ⟨by decide, fun s hl => ⟨exec_mainStep_of_not_enabled hl, fun henabled => ⟨fun hmpc => ?_, fun hmpc => ?_⟩⟩⟩
  · obtain ⟨u, hu⟩ := Option.ne_none_iff_exists'.mp fun hnone => absurd ((microStep_eq_none_iff s).mp hnone) (by omega)
    exact ⟨_, exec_mainStep ⟨hl, henabled⟩ hu, rfl⟩
  · exact exec_mainStep_of_no_microStep ⟨hl, henabled⟩ ((microStep_eq_none_iff s).mpr hmpc)

/-! The servo loop, micro-step by micro-step (R244 to R249). -/

section
variable {s : State}

/-- M0 (R244). -/
theorem exec_mainStep_position (hs : MainReady s) (hmpc : Mainctl.mpc s.mainctl = 0#4) :
    exec .mainStep s = .next { s with
      pv := scale s.cfg s.smp0, mainctl := Mainctl.setMpc 1 s.mainctl, resp := .nothing } :=
  exec_mainStep hs (microStep_at_0 s hmpc)

/-- M1 (R245). -/
theorem exec_mainStep_focusTarget (hs : MainReady s) (hmpc : Mainctl.mpc s.mainctl = 1#4) :
    exec .mainStep s = .next { s with ftl := s.ft, mainctl := Mainctl.setMpc 2 s.mainctl, resp := .nothing } :=
  exec_mainStep hs (microStep_at_1 s hmpc)

/-- M2 (R246). -/
theorem exec_mainStep_samplerGate (hs : MainReady s) (hmpc : Mainctl.mpc s.mainctl = 2#4) :
    exec .mainStep s = .next { s with
      mainctl := s.mainctl |> Mainctl.setG (samplerOk s) |> Mainctl.setMpc 3, resp := .nothing } :=
  exec_mainStep hs (microStep_at_2 s hmpc)

/-- M3 (R247). -/
theorem exec_mainStep_focusAxis (hs : MainReady s) (hmpc : Mainctl.mpc s.mainctl = 3#4) :
    exec .mainStep s = .next { s with
      out := if Mainctl.g s.mainctl then Out.setFoc (focusCmp s.pv s.ftl).code s.out else s.out
      mainctl := Mainctl.setMpc 4 s.mainctl
      resp := .nothing } :=
  exec_mainStep hs (microStep_at_3 s hmpc)

/-- M4 (R248). -/
theorem exec_mainStep_sequencerGate (hs : MainReady s) (hmpc : Mainctl.mpc s.mainctl = 4#4) :
    exec .mainStep s = .next { s with
      mainctl := s.mainctl |> Mainctl.setG (sequencerOk s) |> Mainctl.setMpc 5, resp := .nothing } :=
  exec_mainStep hs (microStep_at_4 s hmpc)

/-- M5 behind an open gate (R249). -/
theorem exec_mainStep_rotaryTarget (hs : MainReady s) (hmpc : Mainctl.mpc s.mainctl = 5#4)
    (hopen : Mainctl.g s.mainctl = true) :
    exec .mainStep s = .next { s with
      mainctl := s.mainctl |> Mainctl.setTgt (s.rt.extractLsb' 0 2) |> Mainctl.setMpc 6, resp := .nothing } := by
  rw [exec_mainStep hs (microStep_at_5 s hmpc), microM5, if_pos hopen]

/-- M5 behind a closed gate (R249). -/
theorem exec_mainStep_skipRotary (hs : MainReady s) (hmpc : Mainctl.mpc s.mainctl = 5#4)
    (hclosed : Mainctl.g s.mainctl = false) :
    exec .mainStep s = .next { s with mainctl := Mainctl.setMpc 0 s.mainctl, resp := .nothing } := by
  rw [exec_mainStep hs (microStep_at_5 s hmpc), microM5, if_neg (Bool.eq_false_iff.mp hclosed)]

end

/-- Settles O41. -/
theorem mainLoopLatchesPositionAndFocusTarget : Obligations.MainLoopLatchesPositionAndFocusTarget := by
  intro s hl hrun hfree
  refine ⟨fun hmpc => ?position, fun hmpc => ?focusTarget⟩
  case position =>
    have hexec := exec_mainStep_position ⟨hl, hrun, hfree⟩ hmpc
    exact ⟨_, hexec, rfl, scale_toNat s.cfg s.smp0, by simp, setMpc_keepsBits _ _,
      keepsAllBut_of_mainStep hexec rfl (by simp [writes, State.reg])⟩
  case focusTarget =>
    have hexec := exec_mainStep_focusTarget ⟨hl, hrun, hfree⟩ hmpc
    exact ⟨_, hexec, rfl, rfl, by simp, setMpc_keepsBits _ _,
      keepsAllBut_of_mainStep hexec rfl (by simp [writes, State.reg])⟩

theorem samplerOk_iff (s : State) : samplerOk s = true ↔ Stat.smpNst s.stat = false ∧ Stat.smpErr s.stat = false := by
  simp [samplerOk]

/-- Latching a gate writes G and MPC. -/
theorem latchGate_keepsBits (g : Bool) (v : BitVec 4) (w : Word) :
    KeepsBits [1, 4, 5, 6, 7] w (w |> Mainctl.setG g |> Mainctl.setMpc v) :=
  keepsBits_setField _ 4 _ _ _ (by decide) (keepsBits_setBit _ 1 _ _ _ (by decide) (keepsBits_refl _ _))

/-- Settles O42: SEQ_ERR is hardwired 0, so SEQ_NST alone decides the sequencer's gate. -/
theorem mainLoopLatchesTheStatusGates : Obligations.MainLoopLatchesTheStatusGates := by
  intro s hl hrun hfree
  refine ⟨fun hmpc => ?sampler, fun hmpc => ?sequencer⟩
  case sampler =>
    have hexec := exec_mainStep_samplerGate ⟨hl, hrun, hfree⟩ hmpc
    exact ⟨_, hexec, rfl, by simp [samplerOk_iff], by simp, latchGate_keepsBits _ _ _,
      keepsAllBut_of_mainStep hexec rfl (by simp [writes, State.reg])⟩
  case sequencer =>
    have hexec := exec_mainStep_sequencerGate ⟨hl, hrun, hfree⟩ hmpc
    exact ⟨_, hexec, rfl, by simp [sequencerOk_iff], by simp, latchGate_keepsBits _ _ _,
      keepsAllBut_of_mainStep hexec rfl (by simp [writes, State.reg])⟩

theorem setFoc_keepsBits (v : BitVec 2) (w : Word) : KeepsBits [0, 1] w (Out.setFoc v w) :=
  keepsBits_setField _ 0 _ _ _ (by decide) (keepsBits_refl _ _)

/-- The code of the comparison, as R241 writes it. -/
theorem focusCmp_code (pv ft : Word) : (focusCmp pv ft).code =
    if ft.toNat < pv.toNat then 2#2 else if pv.toNat < ft.toNat then 1#2 else 0#2 := by
  rw [focusCmp, apply_ite Dir.code, apply_ite Dir.code]
  rfl

/-- Settles O43. -/
theorem mainLoopDrivesFocusAxisBehindOpenGate : Obligations.MainLoopDrivesFocusAxisBehindOpenGate := by
  intro s hl hrun hfree hmpc
  have hexec := exec_mainStep_focusAxis ⟨hl, hrun, hfree⟩ hmpc
  refine ⟨_, hexec, rfl, by simp, fun hopen => ?_, fun hclosed => by simp [hclosed], ?_, setMpc_keepsBits _ _,
    keepsAllBut_of_mainStep hexec rfl (by simp [writes, State.reg])⟩
  · simp only [hopen, if_true, (Out.setFoc_fields _ _).1, focusCmp_code]
  · dsimp only
    split
    · exact setFoc_keepsBits _ _
    · exact keepsBits_refl _ _

/-- Settles O44. -/
theorem mainLoopLatchesRotaryTargetBehindOpenGate : Obligations.MainLoopLatchesRotaryTargetBehindOpenGate := by
  intro s hl hrun hfree hmpc
  cases hgate : Mainctl.g s.mainctl
  case true =>
    have hexec := exec_mainStep_rotaryTarget ⟨hl, hrun, hfree⟩ hmpc hgate
    refine ⟨_, hexec, rfl, keepsAllBut_of_mainStep hexec rfl (by simp [writes, State.reg]), fun _ => ?_, nofun⟩
    exact ⟨by simp, by simp,
      keepsBits_setField _ 4 _ _ _ (by decide) (keepsBits_setField _ 8 _ _ _ (by decide) (keepsBits_refl _ _))⟩
  case false =>
    have hexec := exec_mainStep_skipRotary ⟨hl, hrun, hfree⟩ hmpc hgate
    exact ⟨_, hexec, rfl, keepsAllBut_of_mainStep hexec rfl (by simp [writes, State.reg]), nofun, fun _ =>
      ⟨by simp, setMpc_keepsBits _ _⟩⟩

end Sys2Proof.Machine
end

section
/-! The family 44_servo_main.md: the length of an iteration and its two independent gates (R250, R251; O49). -/

namespace Sys2Proof.Machine

/-! Runs of MAIN_STEP up to the end of the iteration. -/

/-- `IterationRun n s t`: the iteration under way in `s` takes `n` more MAIN_STEPs and ends in `t`, the first state with
MPC 0 again (R104, R250). -/
inductive IterationRun : Nat → State → State → Prop where
  | last {s t : State} (h : exec .mainStep s = .next t) (hend : Mainctl.mpc t.mainctl = 0#4) : IterationRun 1 s t
  | step {n : Nat} {s u t : State} (h : exec .mainStep s = .next u) (hgoes : Mainctl.mpc u.mainctl ≠ 0#4)
      (hrest : IterationRun n u t) : IterationRun (n + 1) s t

/-- No micro-step reads or writes the response (R10). -/
theorem microStep_withResp (s : State) (r : Response) :
    microStep { s with resp := r } = (microStep s).map fun u => { u with resp := r } := by
  unfold microStep
  dsimp only
  split
  case h_9 => simp only [microSp3_eq, Option.map_some]
  all_goals rfl

/-- So the length of an iteration does not depend on the response either. -/
theorem iterLength_withResp (fuel : Nat) (s : State) (r : Response) :
    iterLength fuel { s with resp := r } = iterLength fuel s := by
  induction fuel generalizing s with
  | zero => rfl
  | succ fuel ih =>
    rw [iterLength, iterLength, microStep_withResp]
    cases microStep s with
    | none => rfl
    | some u => simp only [Option.map_some, ih]

theorem IterationRun.mpc_eq_zero {n : Nat} {s t : State} (h : IterationRun n s t) : Mainctl.mpc t.mainctl = 0#4 := by
  induction h with
  | last _ hend => exact hend
  | step _ _ _ ih => exact ih

theorem IterationRun.execAll_eq {n : Nat} {s t : State} (h : IterationRun n s t) :
    execAll (List.replicate n .mainStep) s = .next t := by
  induction h with
  | last h _ => exact (execAll_cons_next_iff _ _ _ _).mpr ⟨_, h, execAll_nil _⟩
  | step h _ _ ih => exact (execAll_cons_next_iff _ _ _ _).mpr ⟨_, h, ih⟩

theorem IterationRun.iterLength_eq {n : Nat} {s t : State} (h : IterationRun n s t) {fuel : Nat} (hfuel : n ≤ fuel) :
    iterLength fuel s = n := by
  induction h generalizing fuel with
  | last h hend =>
    obtain ⟨-, -, u, hu, rfl⟩ := (mainStep_next_iff _ _).mp h
    obtain ⟨fuel, rfl⟩ := Nat.exists_eq_add_of_le' hfuel
    simp [iterLength, hu, show Mainctl.mpc u.mainctl = 0#4 from hend]
  | @step n s v t h hgoes _ ih =>
    obtain ⟨-, -, u, hu, rfl⟩ := (mainStep_next_iff _ _).mp h
    obtain ⟨fuel, rfl⟩ := Nat.exists_eq_add_of_le' (Nat.le_of_add_left_le hfuel)
    have hrest : iterLength fuel u = n := iterLength_withResp fuel u .nothing ▸ ih (by omega)
    simp [iterLength, hu, show Mainctl.mpc u.mainctl ≠ 0#4 from hgoes, hrest, Nat.add_comm]

/-! The focus half of an iteration: M0 to M3. -/

/-- Writes of disjoint fields commute (R74). -/
theorem setField_comm {len len' : Nat} {lo lo' : Nat} (v : BitVec len) (v' : BitVec len') (w : Word)
    (h : lo + len ≤ lo' ∨ lo' + len' ≤ lo) :
    setField lo v (setField lo' v' w) = setField lo' v' (setField lo v w) := by
  apply BitVec.eq_of_getLsbD_eq
  intro i _
  simp only [getLsbD_setField]
  split_ifs
  · omega
  all_goals rfl

theorem setMpc_setG (v : BitVec 4) (b : Bool) (w : Word) :
    Mainctl.setMpc v (Mainctl.setG b w) = Mainctl.setG b (Mainctl.setMpc v w) :=
  setField_comm v (BitVec.ofBool b) w (by decide)

/-- The state after M0 to M3 without interruption: the sampler gate alone decides whether the focus axis is driven. -/
def focusHalf (s : State) : State :=
  { s with
    pv := scale s.cfg s.smp0
    ftl := s.ft
    out := if samplerOk s then Out.setFoc (focusCmp (scale s.cfg s.smp0) s.ft).code s.out else s.out
    mainctl := s.mainctl |> Mainctl.setMpc 4 |> Mainctl.setG (samplerOk s)
    resp := .nothing }

theorem MainReady.focusHalf {s : State} (hs : MainReady s) : MainReady (focusHalf s) := by
  obtain ⟨hl, hrun, hfree⟩ := hs
  exact ⟨hl, by simpa [Machine.focusHalf] using hrun, hfree⟩

theorem IterationRun.focusHalf {s t : State} {n : Nat} (hs : MainReady s) (hmpc : Mainctl.mpc s.mainctl = 0#4)
    (hrest : IterationRun n (focusHalf s) t) : IterationRun (n + 4) s t := by
  have h1 := exec_mainStep_position hs hmpc
  have hs1 := hs.step h1
  have h2 := exec_mainStep_focusTarget hs1 (by simp)
  have hs2 := hs1.step h2
  have h3 := exec_mainStep_samplerGate hs2 (by simp)
  have h4 := exec_mainStep_focusAxis (hs2.step h3) (by simp)
  refine .step h1 (by simp) (.step h2 (by simp) (.step h3 (by simp) (.step h4 (by simp) ?_)))
  simpa [samplerOk, Machine.focusHalf, setMpc_setG, setMpc_setMpc] using hrest

/-! The rotary half: M4, M5 and the setPhase. -/

section
variable {s : State}

/-- SP3 for any two codes: an undefined row drives some pair (R233, log 7). -/
theorem exec_mainStep_driveSome (hs : MainReady s) (hmpc : Mainctl.mpc s.mainctl = 8#4) : ∃ d n,
    exec .mainStep s = .next { s with
      out := driveAxes d s.out, mainctl := Mainctl.setMpc 9 s.mainctl, draws := n, resp := .nothing } := by
  rw [exec_mainStep hs (microStep_at_8 s hmpc), microSp3_eq]
  exact ⟨_, _, rfl⟩

/-- A setPhase to the current phase ends at SP1 (R231). -/
theorem exists_iterationRun_samePhase (hs : MainReady s) (hmpc : Mainctl.mpc s.mainctl = 6#4)
    (heq : Mainctl.tgt s.mainctl = Seqctl.cp s.seqctl) :
    ∃ t, IterationRun 1 s t ∧ t.seqctl = s.seqctl ∧ t.out = s.out :=
  ⟨_, .last (exec_mainStep_compare hs hmpc) (by simp [heq]), rfl, rfl⟩

/-- A setPhase to another phase takes SP1 to SP5 (R231 to R235), commits its target and leaves the focus axis alone. -/
theorem exists_iterationRun_otherPhase (hs : MainReady s) (hmpc : Mainctl.mpc s.mainctl = 6#4)
    (hne : Mainctl.tgt s.mainctl ≠ Seqctl.cp s.seqctl) :
    ∃ t, IterationRun 5 s t ∧ Seqctl.cp t.seqctl = Mainctl.tgt s.mainctl ∧ Out.foc t.out = Out.foc s.out := by
  have h1 := exec_mainStep_compare hs hmpc
  rw [if_neg hne] at h1
  have hs1 := hs.step h1
  have h2 := exec_mainStep_disarm hs1 (by simp)
  have hs2 := hs1.step h2
  obtain ⟨d, n, h3⟩ := exec_mainStep_driveSome hs2 (by simp)
  have hs3 := hs2.step h3
  have h4 := exec_mainStep_commit hs3 (by simp)
  have h5 := exec_mainStep_rearm (hs3.step h4) (by simp)
  exact ⟨_, .step h1 (by simp) (.step h2 (by simp) (.step h3 (by simp) (.step h4 (by simp) (.last h5 (by simp))))),
    by simp, by simp⟩

/-- From M4 behind a closed sequencer gate: M5 ends the iteration. -/
theorem exists_iterationRun_rotarySkipped (hs : MainReady s) (hmpc : Mainctl.mpc s.mainctl = 4#4)
    (hclosed : Stat.seqNst s.stat = true) :
    ∃ t, IterationRun 2 s t ∧ t.seqctl = s.seqctl ∧ t.out = s.out := by
  have hgate : sequencerOk s = false := by simp [sequencerOk, hclosed]
  have h1 := exec_mainStep_sequencerGate hs hmpc
  have h2 := exec_mainStep_skipRotary (hs.step h1) (by simp) (by simp [hgate])
  exact ⟨_, .step h1 (by simp) (.last h2 (by simp)), rfl, rfl⟩

/-- From M4 behind an open sequencer gate: a setPhase to RT follows M5. -/
theorem exists_iterationRun_rotaryServed (hs : MainReady s) (hmpc : Mainctl.mpc s.mainctl = 4#4)
    (hopen : Stat.seqNst s.stat = false) :
    ∃ t, IterationRun (if s.rt.extractLsb' 0 2 = Seqctl.cp s.seqctl then 3 else 7) s t ∧
      Seqctl.cp t.seqctl = s.rt.extractLsb' 0 2 ∧ Out.foc t.out = Out.foc s.out := by
  have h1 := exec_mainStep_sequencerGate hs hmpc
  have hs1 := hs.step h1
  have h2 := exec_mainStep_rotaryTarget hs1 (by simp) (by simpa using (sequencerOk_iff s).mpr hopen)
  have hs2 := hs1.step h2
  split
  case isTrue heq =>
    obtain ⟨t, ht, hseq, hout⟩ := exists_iterationRun_samePhase hs2 (by simp) (by simpa using heq)
    exact ⟨t, .step h1 (by simp) (.step h2 (by simp) ht), hseq ▸ heq.symm, hout ▸ rfl⟩
  case isFalse hne =>
    obtain ⟨t, ht, hcp, hfoc⟩ := exists_iterationRun_otherPhase hs2 (by simp) (by simpa using hne)
    exact ⟨t, .step h1 (by simp) (.step h2 (by simp) ht), by simpa using hcp, hfoc⟩

end

/-! The whole iteration. -/

/-- The sampler gate alone decides the focus command (R251). -/
theorem focusHalf_foc (s : State) :
    Out.foc (focusHalf s).out = if samplerOk s then (focusCmp (scale s.cfg s.smp0) s.ft).code else Out.foc s.out := by
  simp only [focusHalf]
  split <;> simp

/-- M0 to M3 leave the rotary axes alone (R251). -/
theorem focusHalf_axes (s : State) :
    Out.axa (focusHalf s).out = Out.axa s.out ∧ Out.axb (focusHalf s).out = Out.axb s.out := by
  simp only [focusHalf]
  split <;> simp

/-- An iteration from M0: its length by the sequencer gate, the focus command as M0 to M3 leave it, and what the sequencer
gate decides (R250, R251). -/
theorem exists_iterationRun (s : State) (hs : MainReady s) (hmpc : Mainctl.mpc s.mainctl = 0#4) :
    ∃ t, IterationRun
        (if Stat.seqNst s.stat = true then 6 else if s.rt.extractLsb' 0 2 = Seqctl.cp s.seqctl then 7 else 11) s t ∧
      Out.foc t.out = Out.foc (focusHalf s).out ∧
      (Stat.seqNst s.stat = true → t.seqctl = s.seqctl ∧ t.out = (focusHalf s).out) ∧
      (Stat.seqNst s.stat = false → Seqctl.cp t.seqctl = s.rt.extractLsb' 0 2) := by
  have hmpc4 : Mainctl.mpc (focusHalf s).mainctl = 4#4 := by simp [focusHalf]
  cases hgate : Stat.seqNst s.stat
  case true =>
    obtain ⟨t, ht, hseq, hout⟩ := exists_iterationRun_rotarySkipped hs.focusHalf hmpc4 hgate
    exact ⟨t, ht.focusHalf hs hmpc, congrArg Out.foc hout, fun _ => ⟨hseq, hout⟩, nofun⟩
  case false =>
    obtain ⟨t, ht, hcp, hfoc⟩ := exists_iterationRun_rotaryServed hs.focusHalf hmpc4 hgate
    refine ⟨t, ?_, hfoc, nofun, fun _ => hcp⟩
    have hrun := ht.focusHalf hs hmpc
    rwa [ite_add] at hrun

/-- Settles O49. -/
theorem iterationLengthAndIndependentGates : Obligations.IterationLengthAndIndependentGates := by
  intro s hl hrun hfree hmpc
  obtain ⟨t, ht, hfoc, hclosed, hopen⟩ := exists_iterationRun s ⟨hl, hrun, hfree⟩ hmpc
  have hlength := ht.iterLength_eq (fuel := 11) (by split_ifs <;> decide)
  have hall : execAll (Pseudo.expand .iter s) s = .next t := by
    rw [Pseudo.expand, hlength]
    exact ht.execAll_eq
  rw [focusHalf_foc] at hfoc
  obtain ⟨haxa, haxb⟩ := focusHalf_axes s
  refine ⟨hlength, t, hall, ht.mpc_eq_zero, fun h => ?_, fun h => ?_, fun h => ?_, hopen⟩
  · rw [hfoc, if_pos ((samplerOk_iff s).mpr h)]
  · rw [hfoc, if_neg]
    rw [samplerOk_iff]
    rintro ⟨hnst, herr⟩
    simp [hnst, herr] at h
  · obtain ⟨hseq, hout⟩ := hclosed h
    exact ⟨hseq, hout ▸ haxa, hout ▸ haxb⟩

end Sys2Proof.Machine
end

section
/-! The family 60_exceptions.md: when an interrupt line becomes pending and is cleared (R270, R272). -/

namespace Sys2Proof.Machine

/-! The three lines: the register each stands in, the events that set it, and its handler. -/

/-- The register whose bit the line is (R270). -/
def lineReg : IrqLine → Reg
  | .sampler => .smpctl
  | .sequencer => .seqctl
  | .bus => .busctl

/-- The step that takes the line's handler (R270, R271). -/
def lineHandler : IrqLine → Instr
  | .sampler => .isrSmp
  | .sequencer => .isrSeq
  | .bus => .isrBus

/-- The operation is an event of the line's source (R270). -/
def Raises (i : Instr) : IrqLine → Prop
  | .sampler => ∃ v e o, i = .conv v e o
  | .sequencer => i = .settleTick
  | .bus => i = .busStatreq ∨ ∃ d, i = .busCmd d

theorem pending_eq_of_lineReg_eq {l : IrqLine} {s t : State} (h : t.reg (lineReg l) = s.reg (lineReg l)) :
    pending l t = pending l s := by
  cases l with
  | sampler => exact congrArg Smpctl.cpend h
  | sequencer => exact congrArg Seqctl.stelapsed h
  | bus => exact congrArg Busctl.mfull h

/-- Only the handler's own step belongs to its agent (R13). -/
theorem agent_eq_handlerAgent_iff (i : Instr) (l : IrqLine) : i.agent = handlerAgent l ↔ i = lineHandler l := by
  cases l <;> cases i <;> simp [Instr.agent, handlerAgent, lineHandler]

theorem handlerAgent_ne_host (l : IrqLine) : handlerAgent l ≠ .host := by
  cases l <;> simp [handlerAgent]

/-- A handler's step is enabled exactly when its line is pending and no handler is active (R271). -/
theorem enabled_lineHandler_iff (l : IrqLine) (s : State) :
    enabled (lineHandler l) s = true ↔ s.cfg.legal = true ∧ pending l s = true ∧ handlerActive s = false := by
  have hguard : guardOf (lineHandler l) s = handlerEnabled l s := by cases l <;> rfl
  rw [enabled_eq, hguard, Bool.and_eq_true, handlerEnabled_iff, handlerActive]

/-! What one step can do to a line. -/

/-- No line is pending right after RESET (R40). -/
theorem not_pending_of_reset {s t : State} (h : exec .reset s = .next t) (l : IrqLine) : pending l t = false := by
  obtain ⟨-, rfl⟩ := (reset_next_iff _ _).mp h
  cases l with
  | sampler => exact show Smpctl.cpend 0 = false by decide
  | sequencer => exact show Seqctl.stelapsed 0 = false by decide
  | bus => exact show Busctl.mfull 0 = false by decide

/-- Taking a handler acknowledges its source (R272). -/
theorem not_pending_of_lineHandler {l : IrqLine} {s t : State} (h : exec (lineHandler l) s = .next t) :
    pending l t = false := by
  cases l with
  | sampler =>
    obtain ⟨-, -, rfl⟩ := (isrSmp_next_iff _ _).mp h
    exact (samplerHandler_smpctl s).1
  | sequencer =>
    obtain ⟨-, -, rfl⟩ := (isrSeq_next_iff _ _).mp h
    exact (settleHandler_seqctl s).1
  | bus =>
    obtain ⟨-, -, rfl⟩ := (isrBus_next_iff _ _).mp h
    exact (busHandler_empties_mailbox s).1

/-- The step by `i` from `s` to `t` leaves the line as it was, or is an event that sets it, or is its handler or RESET and
clears it (R270, R272). -/
def LineStep (l : IrqLine) (i : Instr) (s t : State) : Prop :=
  pending l t = pending l s ∨ (Raises i l ∧ pending l t = true) ∨
    ((i = lineHandler l ∨ i = .reset) ∧ pending l t = false)

theorem LineStep.of_not_written {l : IrqLine} {i : Instr} {s t : State} (h : exec i s = .next t)
    (hw : lineReg l ∉ writes i) : LineStep l i s t :=
  .inl (pending_eq_of_lineReg_eq (exec_reg_of_not_written h hw))

theorem LineStep.of_reset {l : IrqLine} {s t : State} (h : exec .reset s = .next t) : LineStep l .reset s t :=
  .inr (.inr ⟨.inr rfl, not_pending_of_reset h l⟩)

theorem LineStep.of_lineHandler {l : IrqLine} {s t : State} (h : exec (lineHandler l) s = .next t) :
    LineStep l (lineHandler l) s t :=
  .inr (.inr ⟨.inl rfl, not_pending_of_lineHandler h⟩)

/-- CPEND: only the conversion that ends the sequence sets it (R148). -/
theorem exec_lineStep_sampler {i : Instr} {s t : State} (h : exec i s = .next t) : LineStep .sampler i s t := by
  cases i with
  | reset => exact .of_reset h
  | isrSmp => exact .of_lineHandler (l := .sampler) h
  | samplerInit =>
    obtain ⟨-, rfl⟩ := (samplerInit_next_iff _ _).mp h
    left
    simp only [pending, samplerInit_eq]
    split <;> simp
  | trgTick =>
    obtain ⟨-, -, rfl⟩ := (trgTick_next_iff _ _).mp h
    left
    simp only [pending, trgTick_eq]
    split <;> simp
  | conv v e o =>
    obtain ⟨-, -, rfl⟩ := (conv_next_iff _ _ _ _ _).mp h
    by_cases hwix : (Smpctl.wix s.smpctl).toNat < 2
    · left
      simp [pending, convert_eq, hwix]
    · right; left
      exact ⟨⟨v, e, o, rfl⟩, by simp [pending, convert_eq, hwix]⟩
  | _ => exact .of_not_written h (by simp [lineReg, writes])

/-- STELAPSED: only the settle tick that reaches the period sets it (R210); SP2 leaves an elapsed event pending (R232). -/
theorem exec_lineStep_sequencer {i : Instr} {s t : State} (h : exec i s = .next t) : LineStep .sequencer i s t := by
  cases i with
  | reset => exact .of_reset h
  | isrSeq => exact .of_lineHandler (l := .sequencer) h
  | seqStart =>
    obtain ⟨-, rfl⟩ := (seqStart_next_iff _ _).mp h
    left
    simp only [pending, seqStart_eq]
    split <;> simp
  | settleTick =>
    obtain ⟨-, -, rfl⟩ := (settleTick_next_iff _ _).mp h
    by_cases hperiod : s.stcnt.toNat + 1 = s.cfg.settleTicks
    · obtain ⟨-, helapsed, -⟩ := settleTick_seqctl_of_period hperiod
      exact .inr (.inl ⟨rfl, helapsed⟩)
    · exact .inl (congrArg Seqctl.stelapsed (settleTick_seqctl_of_not_period hperiod))
  | mainStep =>
    obtain ⟨-, -, u, hu, rfl⟩ := (mainStep_next_iff _ _).mp h
    left
    rcases microStep_sequencer_cases hu with ⟨hseq, -⟩ | ⟨-, hseq, -⟩ | ⟨-, hseq, -⟩ | ⟨-, hseq, -⟩ <;>
      simp [pending, hseq]
  | _ => exact .of_not_written h (by simp [lineReg, writes])

/-- A message is in the mailbox after any arrival: a full one drops the new message (R171 to R173). -/
theorem arrive_mfull (kind : Bool) (d : Word) (s : State) : Busctl.mfull (arrive kind d s).busctl = true := by
  cases hfull : Busctl.mfull s.busctl
  · obtain ⟨hmfull, -⟩ := arrive_of_empty hfull kind d
    exact hmfull
  · rw [arrive_of_full hfull, hfull]

/-- MFULL: the two messages set it, and the end of a wait leaves the mailbox alone (R171, R172, R180). -/
theorem exec_lineStep_bus {i : Instr} {s t : State} (h : exec i s = .next t) : LineStep .bus i s t := by
  cases i with
  | reset => exact .of_reset h
  | isrBus => exact .of_lineHandler (l := .bus) h
  | busCmd d =>
    obtain ⟨-, rfl⟩ := (busCmd_next_iff _ _ _).mp h
    exact .inr (.inl ⟨.inr ⟨d, rfl⟩, arrive_mfull false d s⟩)
  | busStatreq =>
    obtain ⟨-, rfl⟩ := (busStatreq_next_iff _ _).mp h
    exact .inr (.inl ⟨.inl rfl, arrive_mfull true 0 s⟩)
  | txDone a e =>
    obtain ⟨-, -, rfl⟩ := (txDone_next_iff _ _ _ _).mp h
    left
    simp [pending]
  | _ => exact .of_not_written h (by simp [lineReg, writes])

theorem exec_lineStep {i : Instr} {s t : State} (h : exec i s = .next t) (l : IrqLine) : LineStep l i s t := by
  cases l with
  | sampler => exact exec_lineStep_sampler h
  | sequencer => exact exec_lineStep_sequencer h
  | bus => exact exec_lineStep_bus h

theorem raises_of_pending_set {l : IrqLine} {i : Instr} {s t : State} (h : exec i s = .next t)
    (hline : pending l s = false ∧ pending l t = true) : Raises i l := by
  obtain ⟨hs, ht⟩ := hline
  rcases exec_lineStep h l with hkept | ⟨hraises, -⟩ | ⟨-, hcleared⟩
  · simp [hkept, hs] at ht
  · exact hraises
  · simp [hcleared] at ht

theorem handler_or_reset_of_pending_cleared {l : IrqLine} {i : Instr} {s t : State} (h : exec i s = .next t)
    (hline : pending l s = true ∧ pending l t = false) : i = lineHandler l ∨ i = .reset := by
  obtain ⟨hs, ht⟩ := hline
  rcases exec_lineStep h l with hkept | ⟨-, hset⟩ | ⟨hi, -⟩
  · simp [hkept, hs] at ht
  · simp [hset] at ht
  · exact hi

/-- Settles O16: each line by the two lemmas above. -/
theorem pendingLinesChangeOnlyAsNamed : Obligations.PendingLinesChangeOnlyAsNamed := fun _ _ _ h =>
  ⟨raises_of_pending_set (l := .sampler) h, handler_or_reset_of_pending_cleared (l := .sampler) h,
    raises_of_pending_set (l := .sequencer) h, handler_or_reset_of_pending_cleared (l := .sequencer) h,
    raises_of_pending_set (l := .bus) h, handler_or_reset_of_pending_cleared (l := .bus) h⟩

/-! The main loop's own state (R280). -/

/-- The writers of MAINCTL, PV and FTL (R34, R35, R36). -/
theorem not_mem_writes_mainLoop {i : Instr} (hagent : i.agent ≠ .mainLoop) (hstart : i ≠ .mainStart) (hreset : i ≠ .reset)
    {r : Reg} (hr : r ∈ [Reg.mainctl, .pv, .ftl]) : r ∉ writes i := by
  cases i with
  | reset => exact absurd rfl hreset
  | mainStart => exact absurd rfl hstart
  | mainStep => exact absurd rfl hagent
  | _ => fin_cases hr <;> simp [writes]

/-- Settles O50, by the frame of every operation. -/
theorem mainLoopStateSurvivesEveryOtherAgent : Obligations.MainLoopStateSurvivesEveryOtherAgent := by
  intro i s t h hagent hstart hreset
  have hkeep {r : Reg} (hr : r ∈ [Reg.mainctl, .pv, .ftl]) : t.reg r = s.reg r :=
    exec_reg_of_not_written h (not_mem_writes_mainLoop hagent hstart hreset hr)
  exact ⟨hkeep (r := .mainctl) (by simp), hkeep (r := .pv) (by simp), hkeep (r := .ftl) (by simp)⟩

/-! A pending line is served (R271, R290). -/

/-- A pending line stays pending until its handler is taken (R270). -/
theorem exec_keeps_pending {l : IrqLine} {i : Instr} {s t : State} (h : exec i s = .next t)
    (hpending : pending l s = true) (hhandler : i ≠ lineHandler l) (hreset : i ≠ .reset) : pending l t = true := by
  by_contra hcleared
  exact (handler_or_reset_of_pending_cleared h ⟨hpending, Bool.eq_false_iff.mpr hcleared⟩).elim hhandler hreset

/-- Along an execution in which neither its handler nor RESET happens, a pending line stays pending. -/
theorem IsExecution.pending_of_not_served {st : Nat → State} {ev : Nat → Instr} (hrun : IsExecution st ev) {l : IrqLine}
    {n : Nat} (hpending : pending l (st n) = true) (hkept : ∀ m, n ≤ m → ev m ≠ lineHandler l ∧ ev m ≠ .reset) :
    ∀ m, n ≤ m → pending l (st m) = true := by
  intro m hm
  induction m, hm using Nat.le_induction with
  | base => exact hpending
  | succ m hm ih =>
    obtain ⟨-, hstep⟩ := hrun m
    obtain ⟨hhandler, hreset⟩ := hkept m hm
    exact exec_keeps_pending hstep ih hhandler hreset

/-- The handler of a pending line has a step where no handler is active (R271). -/
theorem agentEnabled_handlerAgent {l : IrqLine} {s : State} (hl : s.cfg.legal = true) (hpending : pending l s = true)
    (hfree : handlerActive s = false) : AgentEnabled (handlerAgent l) s :=
  ⟨lineHandler l, by cases l <;> rfl, (agent_eq_handlerAgent_iff _ l).mpr rfl,
    (enabled_lineHandler_iff l s).mpr ⟨hl, hpending, hfree⟩⟩

/-- Settles O60: if the handler were never taken, its line would stay pending with no handler active, so that its step would
stay enabled and weak fairness would take it. -/
theorem pendingHandlerIsEventuallyTaken : Obligations.PendingHandlerIsEventuallyTaken := by
  intro st ev l n hrun hfair hpending hquiet
  by_contra hnever
  have hunserved : ∀ m, n ≤ m → (ev m).agent ≠ handlerAgent l := fun m hm htaken => hnever ⟨m, hm, htaken⟩
  have hundisturbed : ∀ m, n ≤ m → handlerActive (st m) = false ∧ ev m ≠ .reset := by
    intro m hm
    have hnone : ¬ (handlerActive (st m) = true ∨ ev m = .reset) := by
      intro hdisturbed
      obtain ⟨k, hnk, -, htaken⟩ := hquiet m hm hdisturbed
      exact hunserved k hnk htaken
    simpa [not_or] using hnone
  have hstays : ∀ m, n ≤ m → pending l (st m) = true :=
    hrun.pending_of_not_served hpending fun m hm =>
      ⟨mt (agent_eq_handlerAgent_iff _ l).mpr (hunserved m hm), (hundisturbed m hm).2⟩
  have henabled : ∀ m, n ≤ m → AgentEnabled (handlerAgent l) (st m) := by
    intro m hm
    obtain ⟨-, hstep⟩ := hrun m
    exact agentEnabled_handlerAgent (exec_legal hstep) (hstays m hm) (hundisturbed m hm).1
  exact hnever (hfair (handlerAgent l) (handlerAgent_ne_host l) n henabled)

end Sys2Proof.Machine
end

section
/-! The family 70_reset_and_hazards.md: the focus axis before the first successful completion (R303; O57). -/

namespace Sys2Proof.Machine

/-- The main loop is at M3 behind an open sampler gate: its next step drives the focus axis (R246, R247). -/
def FocusGateOpen (s : State) : Prop := Mainctl.mpc s.mainctl = 3#4 ∧ Mainctl.g s.mainctl = true

/-- FOC is driven by M3 alone, behind the open gate: SP3 drives the rotary axes (R233, R247). -/
theorem microStep_foc_cases {s u : State} (h : microStep s = some u) :
    Out.foc u.out = Out.foc s.out ∨ FocusGateOpen s := by
  rcases microStep_cases s u h with ⟨-, rfl⟩ | ⟨-, rfl⟩ | ⟨-, rfl⟩ | ⟨hmpc, rfl⟩ | ⟨-, rfl⟩ | ⟨-, rfl⟩ | ⟨-, rfl⟩ |
    ⟨-, rfl⟩ | ⟨-, rfl⟩ | ⟨-, rfl⟩ | ⟨-, rfl⟩
  case inr.inr.inr.inl =>
    cases hg : Mainctl.g s.mainctl
    case false => exact .inl (by simp [microM3, hg])
    case true => exact .inr ⟨hmpc, hg⟩
  case inr.inr.inr.inr.inr.inr.inr.inr.inl => exact .inl (by simp [microSp3_eq])
  all_goals exact .inl rfl

/-- Of the operations other than RESET only a MAIN_STEP at M3 behind an open gate drives the focus axis. -/
theorem exec_foc_cases {i : Instr} {s t : State} (h : exec i s = .next t) (hreset : i ≠ .reset) :
    Out.foc t.out = Out.foc s.out ∨ FocusGateOpen s := by
  cases i with
  | reset => exact absurd rfl hreset
  | seqStart => exact .inl (exec_keeps_foc h (by simp [CoreStep]) (by simp [EndsWait]))
  | isrSeq => obtain ⟨-, -, rfl⟩ := (isrSeq_next_iff _ _).mp h; exact .inl (by simp [settleHandler])
  | mainStep =>
    obtain ⟨-, -, u, hu, rfl⟩ := (mainStep_next_iff _ _).mp h
    exact (microStep_foc_cases hu : Out.foc u.out = _ ∨ _)
  | _ => exact .inl (congrArg Out.foc (exec_reg_of_not_written h (r := .out) (by simp [writes])))

/-- M2 is the micro-step before M3, and the gate it latches is the sampler's status (R246). -/
theorem samplerOk_of_microStep_focusGateOpen {s u : State} (h : microStep s = some u) (hu : FocusGateOpen u) :
    samplerOk s = true := by
  rcases microStep_cases s u h with ⟨-, rfl⟩ | ⟨-, rfl⟩ | ⟨-, rfl⟩ | ⟨-, rfl⟩ | ⟨-, rfl⟩ | ⟨-, rfl⟩ | ⟨-, rfl⟩ | ⟨-, rfl⟩ |
    ⟨-, rfl⟩ | ⟨-, rfl⟩ | ⟨-, rfl⟩
  · simp [FocusGateOpen, microM0] at hu
  · simp [FocusGateOpen, microM1] at hu
  · simpa [FocusGateOpen, microM2] using hu
  · simp [FocusGateOpen, microM3] at hu
  · simp [FocusGateOpen, microM4] at hu
  · simp only [FocusGateOpen, microM5] at hu
    split at hu <;> simp at hu
  · simp only [FocusGateOpen, microSp1] at hu
    split at hu <;> simp at hu
  · simp [FocusGateOpen, microSp2] at hu
  · simp [FocusGateOpen, microSp3_eq] at hu
  · simp [FocusGateOpen, microSp4] at hu
  · simp [FocusGateOpen, microSp5] at hu

/-- A gate found open at M3 was open before the step, or M2 has just latched it from an OK sampler. -/
theorem exec_focusGateOpen_cases {i : Instr} {s t : State} (h : exec i s = .next t) (hreset : i ≠ .reset)
    (ht : FocusGateOpen t) : FocusGateOpen s ∨ samplerOk s = true := by
  cases i with
  | reset => exact absurd rfl hreset
  | mainStart =>
    obtain ⟨-, rfl⟩ := (mainStart_next_iff _ _).mp h
    cases hrun : Mainctl.mrun s.mainctl
    case true => exact .inl (by rwa [mainStart_of_running hrun] at ht)
    case false =>
      obtain ⟨-, hmpc, -⟩ := mainStart_mainctl_of_stopped hrun
      simp [FocusGateOpen, hmpc] at ht
  | mainStep =>
    obtain ⟨-, -, u, hu, rfl⟩ := (mainStep_next_iff _ _).mp h
    exact .inr (samplerOk_of_microStep_focusGateOpen hu ht)
  | _ =>
    have hmain : t.mainctl = s.mainctl := exec_reg_of_not_written h (r := .mainctl) (by simp [writes])
    exact .inl (by rwa [FocusGateOpen, hmain] at ht)

/-- SMP_NST is set by RESET alone, so that once the first sample is in, it stays so. -/
theorem exec_keeps_smpNst_clear {i : Instr} {s t : State} (h : exec i s = .next t) (hreset : i ≠ .reset)
    (hs : Stat.smpNst s.stat = false) : Stat.smpNst t.stat = false := by
  rcases exec_smpNst_cases h with hkept | ⟨-, hclear⟩ | ⟨hi, -⟩
  · rw [hkept, hs]
  · exact hclear
  · exact absurd hi hreset

theorem exec_keeps_focusHeld (i : Instr) (s t : State) (hs : FocusHeldUntilFirstSample s) (h : exec i s = .next t) :
    FocusHeldUntilFirstSample t := by
  by_cases hreset : i = .reset
  case pos =>
    subst hreset
    obtain ⟨-, rfl⟩ := (reset_next_iff _ _).mp h
    exact powerOn_focusHeld s.cfg s.draws
  case neg =>
    obtain ⟨hheld, hgate⟩ := hs
    refine ⟨fun hnst => ?_, fun hopen => exec_keeps_smpNst_clear h hreset ?_⟩
    · have hnst' : Stat.smpNst s.stat = true := by
        by_contra hclear
        simp [exec_keeps_smpNst_clear h hreset (Bool.eq_false_iff.mpr hclear)] at hnst
      rcases exec_foc_cases h hreset with hfoc | hopen
      · rw [hfoc, hheld hnst']
      · simp [hgate hopen] at hnst'
    · rcases exec_focusGateOpen_cases h hreset hopen with hopen' | hok
      · exact hgate hopen'
      · exact ((samplerOk_iff s).mp hok).1

/-- Settles O57: FOC is driven behind an open gate only, which M2 opens only when SMP_NST is 0. -/
theorem everyStepHoldsFocusUntilFirstSample : Obligations.EveryStepHoldsFocusUntilFirstSample :=
  fun _ _ hs h => step_keeps (fun _ _ hs => hs) exec_keeps_focusHeld hs h

end Sys2Proof.Machine
end

section
/-! The family 70_reset_and_hazards.md: the states in which no agent of the block has a step (R305; O59), and those right after RESET
and after a first message (R301; O10). -/

namespace Sys2Proof.Machine

/-! The guards of the agents' steps. -/

theorem microStep_isSome_iff (s : State) : (microStep s).isSome = true ↔ (Mainctl.mpc s.mainctl).toNat ≤ 10 := by
  rw [← not_iff_not, Bool.not_eq_true, Option.isSome_eq_false_iff, Option.isNone_iff_eq_none, microStep_eq_none_iff]
  omega

/-- The micro-step MPC names exists in every state the invariant admits (R36), so that the guard of MAIN_STEP is R243's. -/
theorem guardOf_mainStep {s : State} (hmpc : (Mainctl.mpc s.mainctl).toNat ≤ 10) : guardOf .mainStep s = mainEnabled s := by
  simp [guardOf, (microStep_isSome_iff s).mpr hmpc]

theorem handlerEnabled_eq_false_iff (l : IrqLine) (s : State) :
    handlerEnabled l s = false ↔ Busctl.bwait s.busctl = true ∨ pending l s = false := by
  rw [handlerEnabled, handlerActive]
  cases pending l s <;> cases Busctl.bwait s.busctl <;> decide

theorem mainEnabled_eq_false_iff (s : State) :
    mainEnabled s = false ↔ Busctl.bwait s.busctl = true ∨ Mainctl.mrun s.mainctl = false := by
  rw [mainEnabled, handlerActive]
  cases Mainctl.mrun s.mainctl <;> cases Busctl.bwait s.busctl <;> decide

/-- An agent's steps all have one guard, so that "no agent has a step" is a statement about seven guards (R13, R290). -/
theorem agentsStopped_iff_guards {s : State} (hl : s.cfg.legal = true) : AgentsStopped s ↔
    Smpctl.sst s.smpctl = sstIdle ∧ Smpctl.busy s.smpctl = false ∧ Seqctl.sten s.seqctl = false ∧
      (∀ l, handlerEnabled l s = false) ∧ guardOf .mainStep s = false := by
  simp only [AgentsStopped, enabled_eq, hl, Bool.true_and]
  constructor
  · intro hstopped
    refine ⟨by simpa [guardOf] using hstopped .trgTick rfl nofun, hstopped (.conv 0 false false) rfl nofun,
      hstopped .settleTick rfl nofun, fun l => ?_, hstopped .mainStep rfl nofun⟩
    cases l with
    | sampler => exact hstopped .isrSmp rfl nofun
    | sequencer => exact hstopped .isrSeq rfl nofun
    | bus => exact hstopped .isrBus rfl nofun
  · rintro ⟨hsst, hbusy, hsten, hhandlers, hmain⟩ i - hagent
    cases i with
    | trgTick => simp [guardOf, hsst]
    | conv v e o => exact hbusy
    | settleTick => exact hsten
    | isrSmp => exact hhandlers .sampler
    | isrSeq => exact hhandlers .sequencer
    | isrBus => exact hhandlers .bus
    | mainStep => exact hmain
    | _ => exact absurd rfl hagent

/-! Where every agent is stopped (R305). -/

/-- An Idle sampler has no sequence in progress and no completion pending (R29). -/
theorem SamplerInv.stopped_of_idle {s : State} (hs : SamplerInv s) (hidle : Smpctl.sst s.smpctl = sstIdle) :
    Smpctl.busy s.smpctl = false ∧ Smpctl.cpend s.smpctl = false := by
  obtain ⟨-, -, -, -, -, -, hquiet, -, -⟩ := hs
  obtain ⟨hbusy, hcpend, -⟩ := hquiet (by rw [hidle]; decide)
  exact ⟨hbusy, hcpend⟩

theorem agentsStopped_iff {s : State} (hsmp : SamplerInv s) (hctl : ControlInv s) : AgentsStopped s ↔
    Smpctl.sst s.smpctl = sstIdle ∧ Seqctl.sten s.seqctl = false ∧
      (Busctl.bwait s.busctl = true ∨
        (Seqctl.stelapsed s.seqctl = false ∧ Busctl.mfull s.busctl = false ∧ Mainctl.mrun s.mainctl = false)) := by
  obtain ⟨hl, -, -, ⟨-, -, hmpc⟩, -⟩ := (controlInv_iff s).mp hctl
  rw [agentsStopped_iff_guards hl, guardOf_mainStep hmpc, mainEnabled_eq_false_iff]
  simp only [handlerEnabled_eq_false_iff]
  constructor
  · rintro ⟨hsst, -, hsten, hlines, hmain⟩
    have hseq := hlines .sequencer
    have hbus := hlines .bus
    simp only [pending] at hseq hbus
    exact ⟨hsst, hsten, by tauto⟩
  · rintro ⟨hsst, hsten, hcore⟩
    obtain ⟨hbusy, hcpend⟩ := hsmp.stopped_of_idle hsst
    refine ⟨hsst, hbusy, hsten, fun l => ?_, by tauto⟩
    cases l with
    | sampler => exact .inr hcpend
    | sequencer => exact hcore.imp_right fun ⟨helapsed, _, _⟩ => helapsed
    | bus => exact hcore.imp_right fun ⟨_, hempty, _⟩ => hempty

/-- In the states R305 lists no agent has a step: before SEQ_START the settle timer has not run (R205). -/
theorem agentsStopped_of_beforeBoot {s : State} (hsmp : SamplerInv s) (hctl : ControlInv s) (hboot : BeforeBoot s) :
    AgentsStopped s := by
  obtain ⟨hsst, hunstarted, hrun, hempty, -⟩ := hboot
  obtain ⟨-, -, -, -, -, hun, -⟩ := (controlInv_iff s).mp hctl
  obtain ⟨-, hsten, helapsed⟩ := hun hunstarted
  exact (agentsStopped_iff hsmp hctl).mpr ⟨hsst, hsten, .inr ⟨helapsed, hempty, hrun⟩⟩

theorem quiescent_iff_beforeBoot {s : State} (hsmp : SamplerInv s) (hctl : ControlInv s) : Quiescent s ↔ BeforeBoot s :=
  ⟨fun hquiescent => hquiescent.2, fun hboot => ⟨agentsStopped_of_beforeBoot hsmp hctl hboot, hboot⟩⟩

/-- Stopped agents, no wait and the boot order of R302 leave the states R305 lists. -/
theorem beforeBoot_of_agentsStopped {s : State} (hsmp : SamplerInv s) (hctl : ControlInv s)
    (hfree : Busctl.bwait s.busctl = false) (horder : Smpctl.sst s.smpctl = sstIdle → Seqctl.started s.seqctl = false)
    (hstopped : AgentsStopped s) : BeforeBoot s := by
  obtain ⟨hsst, -, hcore⟩ := (agentsStopped_iff hsmp hctl).mp hstopped
  obtain ⟨-, hempty, hrun⟩ := hcore.resolve_left (by simp [hfree])
  exact ⟨hsst, horder hsst, hrun, hempty, hfree⟩

theorem agentEnabled_samplingTimer {s : State} (hl : s.cfg.legal = true) (hsst : Smpctl.sst s.smpctl ≠ sstIdle) :
    AgentEnabled .samplingTimer s :=
  ⟨.trgTick, rfl, rfl, (enabled_iff _ _).mpr ⟨_, exec_trgTick hl hsst⟩⟩

theorem agentEnabled_mainLoop {s : State} (hs : MainReady s) (hmpc : (Mainctl.mpc s.mainctl).toNat ≤ 10) :
    AgentEnabled .mainLoop s := by
  obtain ⟨u, hu⟩ := Option.isSome_iff_exists.mp ((microStep_isSome_iff s).mpr hmpc)
  exact ⟨.mainStep, rfl, rfl, (enabled_iff _ _).mpr ⟨_, exec_mainStep hs hu⟩⟩

/-- Settles O59. -/
theorem quiescentStatesAreTheStoppedOnes : Obligations.QuiescentStatesAreTheStoppedOnes := by
  rintro s ⟨-, hsmp, hctl, -, -⟩
  obtain ⟨hl, -, -, ⟨-, -, hmpc⟩, -⟩ := (controlInv_iff s).mp hctl
  refine ⟨agentsStopped_iff hsmp hctl, fun hstopped ⟨hbooted, _, _⟩ => ?_, quiescent_iff_beforeBoot hsmp hctl,
    fun hfree horder => ?_, agentEnabled_samplingTimer hl, fun hrun hfree => agentEnabled_mainLoop ⟨hl, hrun, hfree⟩ hmpc⟩
  · obtain ⟨hsst, -⟩ := (agentsStopped_iff hsmp hctl).mp hstopped
    exact hbooted hsst
  · rw [quiescent_iff_beforeBoot hsmp hctl]
    exact ⟨beforeBoot_of_agentsStopped hsmp hctl hfree horder, agentsStopped_of_beforeBoot hsmp hctl⟩

/-! After RESET (R300, R301). -/

/-- The state after RESET is one R305 lists, and so quiescent. -/
theorem quiescent_of_reset {s t : State} (h : exec .reset s = .next t) : Quiescent t := by
  obtain ⟨hl, rfl⟩ := (reset_next_iff s t).mp h
  have hsmp : SamplerInv { resetState s with resp := .nothing } := powerOn_samplerInv hl s.draws
  have hctl : ControlInv { resetState s with resp := .nothing } := powerOn_controlInv hl s.draws
  refine (quiescent_iff_beforeBoot hsmp hctl).mpr ?_
  simp only [BeforeBoot, handlerActive, resetState_fields]
  decide

/-- An arriving message writes the mailbox, which no guard reads but ISR_BUS's (R171, R172, R174). -/
theorem guardOf_arrive {i : Instr} (hbus : i ≠ .isrBus) (kind : Bool) (d : Word) (r : Response) (s : State) :
    guardOf i { arrive kind d s with resp := r } = guardOf i s := by
  have hactive : Busctl.bwait { arrive kind d s with resp := r }.busctl = Busctl.bwait s.busctl := arrive_bwait kind d s
  rw [arrive_eq] at hactive ⊢
  cases i with
  | isrBus => exact absurd rfl hbus
  | txDone a e => exact hactive
  | isrSmp => simp only [guardOf, handlerEnabled, handlerActive, hactive]; rfl
  | isrSeq => simp only [guardOf, handlerEnabled, handlerActive, hactive]; rfl
  | mainStep =>
    rw [Bool.eq_iff_iff]
    simp only [guardOf, mainEnabled, handlerActive, hactive, Bool.and_eq_true, microStep_isSome_iff]
  | _ => rfl

/-- A message that arrives where every agent is stopped and none waits enables ISR_BUS and no other agent's step (R301). -/
theorem only_isrBus_enabled_of_arrive {s : State} (hl : s.cfg.legal = true) (hs : Quiescent s) (kind : Bool) (d : Word)
    (r : Response) : enabled .isrBus { arrive kind d s with resp := r } = true ∧
      ∀ i : Instr, i.wellFormed = true → i.agent ≠ .host → i.agent ≠ .busHandler →
        enabled i { arrive kind d s with resp := r } = false := by
  obtain ⟨hstopped, -, -, -, -, hfree⟩ := hs
  have hcfg : { arrive kind d s with resp := r }.cfg = s.cfg := (arrive_sameConfigAndTrace kind d s).1
  refine ⟨(enabled_lineHandler_iff .bus _).mpr ⟨by rw [hcfg, hl], arrive_mfull kind d s, (arrive_bwait kind d s).trans hfree⟩,
    fun i hwf hhost hagent => ?_⟩
  have hbus : i ≠ .isrBus := fun hi => hagent (by rw [hi]; rfl)
  rw [enabled_eq, guardOf_arrive hbus, hcfg, ← enabled_eq]
  exact hstopped i hwf hhost

/-- Settles O10. -/
theorem afterResetOnlyTheBusHandlerCanRun : Obligations.AfterResetOnlyTheBusHandlerCanRun := by
  intro s t h
  have hquiescent := quiescent_of_reset h
  have hl : t.cfg.legal = true := exec_cfg h ▸ exec_legal h
  obtain ⟨-, rfl⟩ := (reset_next_iff s t).mp h
  obtain ⟨-, -, hsmpNst, hseqNst⟩ := resetStat_flags s
  refine ⟨hquiescent, show Seqctl.cp 0 = 0#2 by decide, hseqNst, hsmpNst, ?_⟩
  rintro m (rfl | ⟨d, rfl⟩)
  · exact ⟨_, (busStatreq_next_iff _ _).mpr ⟨hl, rfl⟩, only_isrBus_enabled_of_arrive hl hquiescent true 0 .nothing⟩
  · exact ⟨_, (busCmd_next_iff d _ _).mpr ⟨hl, rfl⟩, only_isrBus_enabled_of_arrive hl hquiescent false d .nothing⟩

end Sys2Proof.Machine
end

section
/-! The family 70_reset_and_hazards.md: an elapsed event that is pending across SP3 (R313; O51). -/

namespace Sys2Proof.Machine

/-- Where the main loop has its step, a pending elapsed event has its handler's step too (R271, R274). -/
theorem MainReady.exec_isrSeq {s : State} (hs : MainReady s) (helapsed : Seqctl.stelapsed s.seqctl = true) :
    exec .isrSeq s = .next { settleHandler s with resp := .nothing } := by
  obtain ⟨hl, -, hfree⟩ := hs
  exact (isrSeq_next_iff s _).mpr ⟨hl, ⟨helapsed, hfree⟩, rfl⟩

/-- The settle handler leaves the main loop ready at its micro-step (R280). -/
theorem MainReady.afterSettleHandler {s : State} (hs : MainReady s) :
    MainReady { settleHandler s with resp := .nothing } := hs

/-- The motion SP3 began is cut short, and the phase is the target all the same: what R313 says of the end of the run. -/
def MotionCutShort (s : State) (tip : Bool) (t : State) : Prop :=
  Out.axa t.out = 0#2 ∧ Out.axb t.out = 0#2 ∧ Seqctl.cp t.seqctl = Mainctl.tgt s.mainctl ∧ Seqctl.tip t.seqctl = tip ∧
    Seqctl.sten t.seqctl = true ∧ Seqctl.stelapsed t.seqctl = false ∧ Mainctl.mpc t.mainctl = 0#4

section
variable {s : State} (hs : MainReady s) (hmpc : Mainctl.mpc s.mainctl = 9#4) (helapsed : Seqctl.stelapsed s.seqctl = true)
include hs hmpc helapsed

/-- The handler before SP4: SP4 sets TIP after it. -/
theorem motionCutShort_handler_first : ∃ t, execAll [.isrSeq, .mainStep, .mainStep] s = .next t ∧ MotionCutShort s true t := by
  have hhandler := hs.exec_isrSeq helapsed
  have hcommit := exec_mainStep_commit hs.afterSettleHandler hmpc
  have hrearm := exec_mainStep_rearm (hs.afterSettleHandler.step hcommit) (by simp)
  simp only [execAll_cons_next_iff]
  refine ⟨_, ⟨_, hhandler, _, hcommit, _, hrearm, execAll_nil _⟩, ?_⟩
  simp [MotionCutShort, settleHandler, Dir.code]

/-- The handler between SP4 and SP5. -/
theorem motionCutShort_handler_between :
    ∃ t, execAll [.mainStep, .isrSeq, .mainStep] s = .next t ∧ MotionCutShort s false t := by
  have hcommit := exec_mainStep_commit hs hmpc
  have hs' := hs.step hcommit
  have hhandler := hs'.exec_isrSeq (by simpa using helapsed)
  have hrearm := exec_mainStep_rearm hs'.afterSettleHandler (by simp [settleHandler])
  simp only [execAll_cons_next_iff]
  refine ⟨_, ⟨_, hcommit, _, hhandler, _, hrearm, execAll_nil _⟩, ?_⟩
  simp [MotionCutShort, settleHandler, Dir.code]

/-- The handler after SP5. -/
theorem motionCutShort_handler_last :
    ∃ t, execAll [.mainStep, .mainStep, .isrSeq] s = .next t ∧ MotionCutShort s false t := by
  have hcommit := exec_mainStep_commit hs hmpc
  have hs' := hs.step hcommit
  have hrearm := exec_mainStep_rearm hs' (by simp)
  have hs'' := hs'.step hrearm
  have hhandler := hs''.exec_isrSeq (by simpa using helapsed)
  simp only [execAll_cons_next_iff]
  refine ⟨_, ⟨_, hcommit, _, hrearm, _, hhandler, execAll_nil _⟩, ?_⟩
  simp [MotionCutShort, settleHandler, Dir.code]

end

/-- Settles O51, one lemma for each order of the handler among SP4 and SP5. -/
theorem pendingElapsedEventCutsNewMotionShort : Obligations.PendingElapsedEventCutsNewMotionShort := by
  intro s hl hrun hfree hmpc helapsed run tip horder
  have hs : MainReady s := ⟨hl, hrun, hfree⟩
  simp only [List.mem_cons, Prod.mk.injEq, List.not_mem_nil, or_false] at horder
  rcases horder with ⟨rfl, rfl⟩ | ⟨rfl, rfl⟩ | ⟨rfl, rfl⟩
  · exact motionCutShort_handler_first hs hmpc helapsed
  · exact motionCutShort_handler_between hs hmpc helapsed
  · exact motionCutShort_handler_last hs hmpc helapsed

end Sys2Proof.Machine
end
